-- ==== Sys2Proof/Word.lean ====
section
/-! DEFINITION. The value types of the machine: bytes, 16-bit words and register numbers
(spec/00_scope.md R5 to R7; every value is unsigned). -/

namespace Sys2Proof

/-- A byte: a memory cell, a V register, a timer (R20, R28, R50). -/
abbrev Byte := BitVec 8

/-- A 16-bit value: an opcode, PC, I, a stack entry, the keypad flags (R24, R27, R29, R36, R75). -/
abbrev Word := BitVec 16

/-- The number of a general register, 0 to 15 (R20). -/
abbrev Reg := Fin 16

/-- VF, "register 15", general storage and the implicit flag (R11, R22). -/
abbrev vf : Reg := 15

end Sys2Proof
end

