-- ==== Sys2Proof/Syntax.lean ====
section
/-! DEFINITION. The 34 instructions of spec/30_encoding.md R80, in the order of its table, one constructor
a row. Operands are the decoded fields of R76: registers X and Y, and the immediates N, NN, NNN. -/

namespace Sys2Proof

/-- An instruction. The operand types are as wide as the fields of R76, so each term is encodable (R78:
"all 16 values legal"). `shr` and `shl` keep the Y field that R88 says is decoded and not used. -/
inductive Instr where
  | clearScreen
  | ret
  | jump (nnn : BitVec 12)
  | call (nnn : BitVec 12)
  | skipEqImm (x : Reg) (nn : Byte)
  | skipNeImm (x : Reg) (nn : Byte)
  | skipEqReg (x y : Reg)
  | loadImm (x : Reg) (nn : Byte)
  | addImm (x : Reg) (nn : Byte)
  | copy (x y : Reg)
  | or (x y : Reg)
  | and (x y : Reg)
  | xor (x y : Reg)
  | add (x y : Reg)
  | sub (x y : Reg)
  | shr (x y : Reg)
  | subn (x y : Reg)
  | shl (x y : Reg)
  | skipNeReg (x y : Reg)
  | loadI (nnn : BitVec 12)
  | jumpOffset (nnn : BitVec 12)
  | rand (x : Reg) (nn : Byte)
  | draw (x y : Reg) (n : BitVec 4)
  | skipKeyPressed (x : Reg)
  | skipKeyNotPressed (x : Reg)
  | getDelay (x : Reg)
  | waitKey (x : Reg)
  | setDelay (x : Reg)
  | setSound (x : Reg)
  | addI (x : Reg)
  | fontAddr (x : Reg)
  | storeBCD (x : Reg)
  | regDump (x : Reg)
  | regLoad (x : Reg)
deriving DecidableEq, Repr

/-- The class name of the instruction, the mnemonic of its row in the table of R80. -/
def Instr.mnemonic : Instr → String
  | .clearScreen => "clear-screen"
  | .ret => "return"
  | .jump _ => "jump"
  | .call _ => "call"
  | .skipEqImm _ _ => "skip-eq-imm"
  | .skipNeImm _ _ => "skip-ne-imm"
  | .skipEqReg _ _ => "skip-eq-reg"
  | .loadImm _ _ => "load-imm"
  | .addImm _ _ => "add-imm"
  | .copy _ _ => "copy"
  | .or _ _ => "or"
  | .and _ _ => "and"
  | .xor _ _ => "xor"
  | .add _ _ => "add"
  | .sub _ _ => "sub"
  | .shr _ _ => "shr"
  | .subn _ _ => "subn"
  | .shl _ _ => "shl"
  | .skipNeReg _ _ => "skip-ne-reg"
  | .loadI _ => "load-I"
  | .jumpOffset _ => "jump-offset"
  | .rand _ _ => "rand"
  | .draw _ _ _ => "draw"
  | .skipKeyPressed _ => "skip-key-pressed"
  | .skipKeyNotPressed _ => "skip-key-not-pressed"
  | .getDelay _ => "get-delay"
  | .waitKey _ => "wait-key"
  | .setDelay _ => "set-delay"
  | .setSound _ => "set-sound"
  | .addI _ => "add-I"
  | .fontAddr _ => "font-addr"
  | .storeBCD _ => "store-BCD"
  | .regDump _ => "reg-dump"
  | .regLoad _ => "reg-load"

end Sys2Proof
end

