-- ==== Sys2Proof/Decode.lean ====
section
/-! DEFINITION. Decoding and encoding, from spec/30_encoding.md: the fields of R76, the two-level dispatch of
R79 and R82, strict on each fixed bit (R87), and the encoder that lays the same fields out (R77, R80). -/

namespace Sys2Proof

/-- Why a word, or a byte sequence, is no instruction: the class of R87 whose fixed bits it misses, or too
few bytes. Each illegal word is the one fault DecodeFault (R214). -/
inductive Reject where
  /-- Class 0x0 other than 0x00E0 and 0x00EE, the customary 0NNN among them (R86, R87). -/
  | class0
  /-- Class 0x5 with a low nibble other than 0 (R87). -/
  | class5
  /-- Class 0x8 with low nibble 8 to 0xD or 0xF (R87). -/
  | class8
  /-- Class 0x9 with a low nibble other than 0 (R87). -/
  | class9
  /-- Class 0xE with a low byte other than 0x9E and 0xA1 (R87). -/
  | classE
  /-- Class 0xF with a low byte that is none of the nine of R80 (R87). -/
  | classF
  /-- Fewer than the two bytes of an opcode (R75). -/
  | truncated
deriving DecidableEq, Repr

/-- What the decoder answers: "exactly one instruction or ... `DecodeFault`, never ... two" (R79). -/
inductive Decoded where
  | instr (i : Instr)
  | rejected (r : Reject)
deriving DecidableEq, Repr

/-- The field `op`, bits 15:12 (R76). -/
def opField (w : Word) : BitVec 4 := w.extractLsb' 12 4

/-- The field X, bits 11:8, a register number (R76). -/
def xField (w : Word) : Reg := (w.extractLsb' 8 4).toFin

/-- The field Y, bits 7:4, a register number (R76). -/
def yField (w : Word) : Reg := (w.extractLsb' 4 4).toFin

/-- The field N, bits 3:0 (R76). -/
def nField (w : Word) : BitVec 4 := w.extractLsb' 0 4

/-- The field NN, bits 7:0 (R76). -/
def nnField (w : Word) : Byte := w.extractLsb' 0 8

/-- The field NNN, bits 11:0 (R76). -/
def nnnField (w : Word) : BitVec 12 := w.extractLsb' 0 12

/-- Class 0x0: the whole word is fixed (R82, R86). -/
def decodeClass0 (w : Word) : Decoded :=
  if w = 0x00E0 then .instr .clearScreen
  else if w = 0x00EE then .instr .ret
  else .rejected .class0

/-- Class 0x8: the low nibble selects (R82). -/
def decodeClass8 (n : BitVec 4) (x y : Reg) : Decoded :=
  match n.toNat with
  | 0x0 => .instr (.copy x y)
  | 0x1 => .instr (.or x y)
  | 0x2 => .instr (.and x y)
  | 0x3 => .instr (.xor x y)
  | 0x4 => .instr (.add x y)
  | 0x5 => .instr (.sub x y)
  | 0x6 => .instr (.shr x y)
  | 0x7 => .instr (.subn x y)
  | 0xE => .instr (.shl x y)
  | _ => .rejected .class8

/-- Class 0xE: the low byte selects (R82, R87). -/
def decodeClassE (nn : Byte) (x : Reg) : Decoded :=
  match nn.toNat with
  | 0x9E => .instr (.skipKeyPressed x)
  | 0xA1 => .instr (.skipKeyNotPressed x)
  | _ => .rejected .classE

/-- Class 0xF: the low byte selects (R82). -/
def decodeClassF (nn : Byte) (x : Reg) : Decoded :=
  match nn.toNat with
  | 0x07 => .instr (.getDelay x)
  | 0x0A => .instr (.waitKey x)
  | 0x15 => .instr (.setDelay x)
  | 0x18 => .instr (.setSound x)
  | 0x1E => .instr (.addI x)
  | 0x29 => .instr (.fontAddr x)
  | 0x33 => .instr (.storeBCD x)
  | 0x55 => .instr (.regDump x)
  | 0x65 => .instr (.regLoad x)
  | _ => .rejected .classF

/-- `decode(w)` of R82, total on the 65536 words. -/
def decode (w : Word) : Decoded :=
  match (opField w).toNat with
  | 0x0 => decodeClass0 w
  | 0x1 => .instr (.jump (nnnField w))
  | 0x2 => .instr (.call (nnnField w))
  | 0x3 => .instr (.skipEqImm (xField w) (nnField w))
  | 0x4 => .instr (.skipNeImm (xField w) (nnField w))
  | 0x5 => if nField w = 0 then .instr (.skipEqReg (xField w) (yField w)) else .rejected .class5
  | 0x6 => .instr (.loadImm (xField w) (nnField w))
  | 0x7 => .instr (.addImm (xField w) (nnField w))
  | 0x8 => decodeClass8 (nField w) (xField w) (yField w)
  | 0x9 => if nField w = 0 then .instr (.skipNeReg (xField w) (yField w)) else .rejected .class9
  | 0xA => .instr (.loadI (nnnField w))
  | 0xB => .instr (.jumpOffset (nnnField w))
  | 0xC => .instr (.rand (xField w) (nnField w))
  | 0xD => .instr (.draw (xField w) (yField w) (nField w))
  | 0xE => decodeClassE (nnField w) (xField w)
  | _ => decodeClassF (nnField w) (xField w)

/-- The opcode of two consecutive bytes, the one at the lower address first: "combine big-endian" (R54, R55). -/
def opcodeOf (hi lo : Byte) : Word := hi ++ lo

/-- The decoder on a byte sequence: the opcode is its first two bytes (R54, R75). -/
def decodeBytes : List Byte → Decoded
  | hi :: lo :: _ => decode (opcodeOf hi lo)
  | _ => .rejected .truncated

/-- The high byte of an opcode, the one at the lower address (R55). -/
def highByte (w : Word) : Byte := w.extractLsb' 8 8

/-- The low byte of an opcode (R55). -/
def lowByte (w : Word) : Byte := w.extractLsb' 0 8

/-- The instruction the decoder reads from a word of the opcode table given as a number of `nbits` bits. An
instruction is one 16-bit word (R75), so a longer number has no bits of its own beyond bit 15. -/
def decodeTableWord (nbits w : Nat) : Option Instr :=
  let opcode : Word := BitVec.ofNat 16 (w % 2 ^ nbits)
  match decodeBytes [highByte opcode, lowByte opcode] with
  | .instr i => some i
  | .rejected _ => none

/-- A register number as a 4-bit field. -/
def regField (r : Reg) : BitVec 4 := BitVec.ofFin r

/-- Format NNN of R77. -/
def layNNN (op : BitVec 4) (nnn : BitVec 12) : Word := op ++ nnn

/-- Format XNN of R77. -/
def layXNN (op : BitVec 4) (x : Reg) (nn : Byte) : Word := op ++ (regField x ++ nn : BitVec 12)

/-- Formats XY and XYN of R77: the last nibble is the fixed selector or N. -/
def layXYN (op : BitVec 4) (x y : Reg) (n : BitVec 4) : Word :=
  op ++ (regField x ++ (regField y ++ n : BitVec 8) : BitVec 12)

/-- The opcode of an instruction, by its row of R80. -/
def encode : Instr → Word
  | .clearScreen => 0x00E0
  | .ret => 0x00EE
  | .jump nnn => layNNN 0x1 nnn
  | .call nnn => layNNN 0x2 nnn
  | .skipEqImm x nn => layXNN 0x3 x nn
  | .skipNeImm x nn => layXNN 0x4 x nn
  | .skipEqReg x y => layXYN 0x5 x y 0x0
  | .loadImm x nn => layXNN 0x6 x nn
  | .addImm x nn => layXNN 0x7 x nn
  | .copy x y => layXYN 0x8 x y 0x0
  | .or x y => layXYN 0x8 x y 0x1
  | .and x y => layXYN 0x8 x y 0x2
  | .xor x y => layXYN 0x8 x y 0x3
  | .add x y => layXYN 0x8 x y 0x4
  | .sub x y => layXYN 0x8 x y 0x5
  | .shr x y => layXYN 0x8 x y 0x6
  | .subn x y => layXYN 0x8 x y 0x7
  | .shl x y => layXYN 0x8 x y 0xE
  | .skipNeReg x y => layXYN 0x9 x y 0x0
  | .loadI nnn => layNNN 0xA nnn
  | .jumpOffset nnn => layNNN 0xB nnn
  | .rand x nn => layXNN 0xC x nn
  | .draw x y n => layXYN 0xD x y n
  | .skipKeyPressed x => layXNN 0xE x 0x9E
  | .skipKeyNotPressed x => layXNN 0xE x 0xA1
  | .getDelay x => layXNN 0xF x 0x07
  | .waitKey x => layXNN 0xF x 0x0A
  | .setDelay x => layXNN 0xF x 0x15
  | .setSound x => layXNN 0xF x 0x18
  | .addI x => layXNN 0xF x 0x1E
  | .fontAddr x => layXNN 0xF x 0x29
  | .storeBCD x => layXNN 0xF x 0x33
  | .regDump x => layXNN 0xF x 0x55
  | .regLoad x => layXNN 0xF x 0x65

/-- The two bytes of an instruction as memory holds them, the high byte first (R55). -/
def encodeBytes (i : Instr) : List Byte := [highByte (encode i), lowByte (encode i)]

end Sys2Proof
end

