-- ==== Sys2Proof/Config.lean ====
section
/-! DEFINITION. What is fixed for a run (the OPEN parameters of spec/00_scope.md R5) and the one
value the spec leaves free, the random byte. -/

namespace Sys2Proof

/-- The OPEN parameters of R5, "arguments of the model". `fontBase` is FONT_BASE, which R61 bounds by
FONT_BASE + 80 <= 0x200; `font` is FONT, sixteen glyphs of five bytes, FONT[d][j] (R62).
A state carries its configuration and nothing changes it, so that a statement about every state holds for
every admissible parameter (log entry 5). -/
structure Config where
  fontBase : Fin (0x200 - 80 + 1)
  font : Vector (Vector Byte 5) 16
deriving DecidableEq, Repr

/-- FREE VALUE (R37, R153, D15): the byte the `n`-th draw of `random(0..255)` returns. It has no body, so
what is proved of it holds whatever the random source answers (log entry 2). -/
opaque Config.freeRandom : Nat → Byte

end Sys2Proof
end

