-- ==== Sys2Proof/Machine/Font.lean ====
section
/-! DEFINITION. The default parameters of spec/00_scope.md R5: FONT_BASE = 0x000 and the glyph bytes of
spec/20_memory.md R62 ("[from general knowledge, not in source]": a claim that depends on them must name
the font, log entry 5). -/

namespace Sys2Proof

/-- The glyphs of the digits 0 to 7, the left half of the table of R62. -/
def glyphsLow : List (Vector Byte 5) :=
  [#v[0xF0, 0x90, 0x90, 0x90, 0xF0], #v[0x20, 0x60, 0x20, 0x20, 0x70],
   #v[0xF0, 0x10, 0xF0, 0x80, 0xF0], #v[0xF0, 0x10, 0xF0, 0x10, 0xF0],
   #v[0x90, 0x90, 0xF0, 0x10, 0x10], #v[0xF0, 0x80, 0xF0, 0x10, 0xF0],
   #v[0xF0, 0x80, 0xF0, 0x90, 0xF0], #v[0xF0, 0x10, 0x20, 0x40, 0x40]]

/-- The glyphs of the digits 8 to F, the right half of the table of R62. -/
def glyphsHigh : List (Vector Byte 5) :=
  [#v[0xF0, 0x90, 0xF0, 0x90, 0xF0], #v[0xF0, 0x90, 0xF0, 0x10, 0xF0],
   #v[0xF0, 0x90, 0xF0, 0x90, 0x90], #v[0xE0, 0x90, 0xE0, 0x90, 0xE0],
   #v[0xF0, 0x80, 0x80, 0x80, 0xF0], #v[0xE0, 0x90, 0x90, 0x90, 0xE0],
   #v[0xF0, 0x80, 0xF0, 0x80, 0xF0], #v[0xF0, 0x80, 0xF0, 0x80, 0x80]]

/-- The default FONT (R62, D11). -/
def defaultFont : Vector (Vector Byte 5) 16 := ⟨(glyphsLow ++ glyphsHigh).toArray, rfl⟩

/-- The default parameters (R5). -/
def Config.default : Config := ⟨0, defaultFont⟩

end Sys2Proof
end

