-- ==== Sys2Proof/Machine/State.lean ====
section
/-! DEFINITION. The state of the machine as plain data: every element of spec/10_state.md, the inputs and
parameters of spec/00_scope.md R5 and R10, and three fields of the model's own (INVENTORY.md, State). -/

namespace Sys2Proof.Machine

/-- The causes of the fatal conditions (R210). Each is a value of the fault register, which the Step or the
Load that raises it sets while everything else stays (R217): the model takes a next state for it, and its
steps never answer `Host.Outcome.fault` (log entry 1). -/
inductive Fault where
  /-- Raised by the fetch and by store-BCD, reg-dump, reg-load and draw when an address exceeds 4095 (R211).
  Safe: the hardware raises the same fault. -/
  | addressFault
  /-- Raised by call with 16 frames in use (R212). Safe: the hardware raises the same fault. -/
  | stackOverflow
  /-- Raised by return with an empty stack (R213). Safe: the hardware raises the same fault. -/
  | stackUnderflow
  /-- Raised by a Step whose opcode matches no row of R80 (R214). Safe: strict decoding faults on more
  words, never on fewer (D1). -/
  | decodeFault
  /-- Raised by a Load of more than 3584 bytes (R215). Safe: the hardware raises the same fault. -/
  | loadFault
deriving DecidableEq, Repr

/-- The codes of R210. -/
def Fault.code : Option Fault → Nat
  | none => 0
  | some .addressFault => 1
  | some .stackOverflow => 2
  | some .stackUnderflow => 3
  | some .decodeFault => 4
  | some .loadFault => 5

/-- Why a step has no meaning. -/
inductive Refusal where
  /-- Raised by exec for an instruction that has no meaning yet: there is none. Safe. -/
  | notModelled (mnemonic : String)
  /-- Raised by an invocation of Load after the first Step, to which "a model gives ... no meaning" (R64,
  93_implementation_defined.md A16 "refuse"). Safe: nothing can be proved of what follows. -/
  | loadAfterFirstStep
deriving DecidableEq, Repr

/-- What an agent outside the core can do to it: the operations of the Driver, the Loader's Load, and the
Input Source's change of the keypad flags (R4, R9, R38). -/
inductive Invocation where
  /-- One fetch-decode-execute cycle (R100). -/
  | step
  /-- One decrement of the timers (R198). -/
  | tick
  /-- The Input Source sets the 16 keypad flags to these levels (R36). -/
  | setKeys (levels : Word)
  /-- The Loader supplies a program image (R64). -/
  | load (image : List Byte)
  /-- Reset (R240). -/
  | reset
deriving DecidableEq, Repr

/-- Memory, as the bytes that differ from the reset contents, each with its address, in strictly rising
order of address (Machine/Memory.lean says what an unlisted address reads as). -/
abbrev Memory := List Host.Cell

/-- The framebuffer: 32 rows, row 0 topmost, of 64 pixels, column 0 leftmost; `true` is on (R32). -/
abbrev Framebuffer := Vector (Vector Bool 64) 32

/-- The state of the core and of its ports. -/
structure State where
  /-- The general registers V0 to VF (R20); `V[15]` is VF (R22). -/
  V : Vector Byte 16
  /-- The index register I (R27). -/
  I : Word
  /-- The program counter (R24). -/
  pc : Word
  /-- SP, the number of stack frames in use (R29). -/
  sp : Fin 17
  /-- STACK[0..15]; the entries at SP and above are not observable (R29). -/
  stack : Vector Word 16
  /-- Main memory Mem (R31). -/
  mem : Memory
  /-- The framebuffer FB (R32). -/
  fb : Framebuffer
  /-- The delay timer DT (R28). -/
  dt : Byte
  /-- The sound timer ST (R28). -/
  st : Byte
  /-- The fault register; `none` is RUNNING, a cause is HALTED (R34, R108). -/
  fault : Option Fault
  /-- `key_prev`, the keypad flags sampled by the last Step that returned Ok (R35). -/
  keyPrev : Word
  /-- INPUT: the levels of the 16 keypad flags now, bit `k` for key `k` (R36; log entry 3). -/
  keys : Word
  /-- MODEL: how many random bytes have been drawn (R37; log entry 2). -/
  draws : Nat
  /-- PARAMETERS: FONT_BASE and FONT, which nothing changes (R5, R10; log entry 5). -/
  config : Config
  /-- MODEL: what the agents outside invoke next, the first first; when nothing is listed the Driver
  invokes Step (R9; log entry 4). -/
  driver : List Invocation
  /-- MODEL: whether a Step has been invoked since Reset (R64; log entry 7). -/
  stepped : Bool
deriving DecidableEq, Repr

/-- The state right after Reset of a core with the given parameters (R39, R240). -/
def State.resetWith (c : Config) : State where
  V := Vector.replicate 16 0
  I := 0
  pc := 0x200
  sp := 0
  stack := Vector.replicate 16 0
  mem := []
  fb := Vector.replicate 32 (Vector.replicate 64 false)
  dt := 0
  st := 0
  fault := none
  keyPrev := 0
  keys := 0
  draws := 0
  config := c
  driver := []
  stepped := false

/-- The machine right after reset, with the default parameters of R5. -/
def State.reset : State := State.resetWith Config.default

end Sys2Proof.Machine
end

