-- ==== Sys2Proof/Machine/Operands.lean ====
section
/-! DEFINITION. The operand forms of spec/30_encoding.md R78 and the results computed from them
(spec/42_arith_logic.md R154, spec/43_index_memory.md, spec/45_timer_input.md R194, R197). -/

namespace Sys2Proof.Machine

/-- `zext_16` of a 12-bit immediate (R8, R78). -/
def zext16 (nnn : BitVec 12) : Word := nnn.setWidth 16

/-- The low nibble of a register's value, the index that font-addr and the key skips use (R162, R197). -/
def lowNibble (a : Byte) : Nat := (a &&& 0x0F).toNat

/-- `keys[V[X] & 0x0F] == 1` (R191, R197). -/
def keyPressed (keys : Word) (a : Byte) : Bool := keys.getLsbD (lowNibble a)

/-- The keys pressed now and not pressed at the previous completed Step: `keys & ~key_prev` (R194). -/
def newKeys (keys keyPrev : Word) : Word := keys &&& ~~~keyPrev

/-- The least key number whose bit is set, if there is one (R194). -/
def leastKey (pressed : Word) : Option Nat := (List.range 16).find? (pressed.getLsbD ·)

/-- The decimal digits of a byte, hundreds first (R164). -/
def bcdDigits (v : Byte) : List Byte :=
  [BitVec.ofNat 8 (v.toNat / 100), BitVec.ofNat 8 (v.toNat / 10 % 10), BitVec.ofNat 8 (v.toNat % 10)]

/-- `(I + V[X]) mod 4096` (R161). -/
def addIndex (i : Word) (a : Byte) : Word := BitVec.ofNat 16 ((i.toNat + a.toNat) % 4096)

/-- `FONT_BASE + 5 * (V[X] & 0x0F)` (R162). -/
def glyphAddress (c : Config) (a : Byte) : Word := BitVec.ofNat 16 (c.fontBase.val + 5 * lowNibble a)

/-- `zext_16(NNN) + zext_16(V[0])`, not reduced modulo 4096 (R128). -/
def offsetTarget (nnn : BitVec 12) (a : Byte) : Word := zext16 nnn + a.setWidth 16

/-- `(a + b) mod 256`, from the exact sum (R142, R148, R154). -/
def sumByte (a b : Byte) : Byte := BitVec.ofNat 8 (a.toNat + b.toNat)

/-- `(m - s) mod 256`, from the exact difference (R149, R151, R154). -/
def diffByte (m s : Byte) : Byte := BitVec.ofInt 8 ((m.toNat : Int) - (s.toNat : Int))

/-- `a >> 1`, 0 shifted in (R150). -/
def shrByte (a : Byte) : Byte := a >>> 1

/-- `(a << 1) mod 256`, 0 shifted in (R152). -/
def shlByte (a : Byte) : Byte := a <<< 1

/-- A timer after one Tick: one less, and 0 stays 0 (R198). -/
def ticked (t : Byte) : Byte := if t.toNat > 0 then t - 1 else t

/-- The bit of a sprite row for column `c`, column 0 being the most significant bit: `(row >> (7 - c)) & 1`
(R181). -/
def spriteBit (row : Byte) (c : Nat) : Bool := row.getLsbD (7 - c)

end Sys2Proof.Machine
end

