-- ==== Sys2Proof/Machine/Flags.lean ====
section
/-! DEFINITION. The values that VF takes (spec/10_state.md R23): 1 means that the exact result fitted in
8 bits, for addition as well as subtraction (spec/42_arith_logic.md R148, R154), the bit shifted out, or a
collision. -/

namespace Sys2Proof.Machine

/-- A flag as the byte 0 or 1. -/
def flagByte (b : Bool) : Byte := if b then 1 else 0

/-- The flag of an addition: 1 when there is NO carry, "the exact sum is at most 255" (R148, R154). -/
def noCarry (a b : Byte) : Byte := flagByte (a.toNat + b.toNat ≤ 255)

/-- The flag of a subtraction `m - s`: 1 when there is no borrow, `m >= s` (R149, R151, R154). -/
def noBorrow (m s : Byte) : Byte := flagByte (m.toNat ≥ s.toNat)

/-- The bit that `shr` shifts out: old bit 0 (R150). -/
def shrOut (a : Byte) : Byte := a &&& 1

/-- The bit that `shl` shifts out: "1 if (a & 0x80) != 0 else 0" (R152). -/
def shlOut (a : Byte) : Byte := flagByte (a &&& 0x80 != 0)

/-- The flag of `draw`: 1 if a lit pixel was turned off (R181, R183). -/
def collision (hit : Bool) : Byte := flagByte hit

end Sys2Proof.Machine
end

