-- ==== Sys2Proof/Machine/Memory.lean ====
section
/-! DEFINITION. Memory as data: what an unlisted address reads as (the reset contents of spec/10_state.md
R31 and R39), reading and writing one byte, and the canonical form. -/

namespace Sys2Proof.Machine

/-- MEM_SIZE (R5): the addresses are 0 to 4095. -/
abbrev memSize : Nat := 4096

/-- What an address holds after Reset, and what an address that memory does not list reads as: byte `j` of
glyph `d` at `FONT_BASE + 5*d + j`, and 0 elsewhere (R39, R61). -/
def Memory.background (c : Config) (a : Nat) : Byte :=
  if h : c.fontBase.val ≤ a ∧ a < c.fontBase.val + 80 then
    (c.font[(a - c.fontBase.val) / 5]'(by omega))[(a - c.fontBase.val) % 5]'(by omega)
  else 0

/-- The byte at an address (R52, without the range check). -/
def Memory.read (c : Config) : Memory → Nat → Byte
  | [], a => Memory.background c a
  | (b, v) :: rest, a => if b = a then v else Memory.read c rest a

/-- A cell put in front of the first cell with a higher address. -/
def Memory.insertCell (a : Nat) (v : Byte) : Memory → Memory
  | [] => [(a, v)]
  | (b, w) :: rest => if a < b then (a, v) :: (b, w) :: rest else (b, w) :: Memory.insertCell a v rest

/-- Memory with one byte changed (R53, without the range check): "changes exactly that one cell". A byte equal
to what the unlisted address reads as is left unlisted. -/
def Memory.write (c : Config) (a : Nat) (v : Byte) (m : Memory) : Memory :=
  let others := m.filter (·.1 != a)
  if v = Memory.background c a then others else Memory.insertCell a v others

/-- Memory with consecutive bytes changed, in ascending order of address from `a` (R163). -/
def Memory.writeAll (c : Config) (a : Nat) : List Byte → Memory → Memory
  | [], m => m
  | v :: vs, m => Memory.writeAll c (a + 1) vs (Memory.write c a v m)

/-- The bytes at `n` consecutive addresses from `a`. -/
def Memory.readAll (c : Config) (m : Memory) (a : Nat) : Nat → List Byte
  | 0 => []
  | n + 1 => Memory.read c m a :: Memory.readAll c m (a + 1) n

/-- The canonical form: addresses strictly rising and inside the address space, no cell equal to what an
unlisted address reads as. Equal memories in this form are equal lists. -/
abbrev Memory.wf (c : Config) (m : Memory) : Prop :=
  m.Pairwise (fun p q => p.1 < q.1) ∧ ∀ p ∈ m, p.1 < memSize ∧ p.2 ≠ Memory.background c p.1

end Sys2Proof.Machine
end

