-- ==== Sys2Proof/Machine/Ops.lean ====
section
/-! DEFINITION. The named operations over State: registers, PC, the stack, memory blocks, the sprite engine,
the raising of a fault and the Reset that alone undoes it, and the end of a completed Step. -/

namespace Sys2Proof.Machine

/-! ## Single elements -/

/-- The value of `V[r]` (R20). -/
def State.reg (s : State) (r : Reg) : Byte := s.V[r]

/-- `V[r] <- v` (R20). -/
def State.setReg (s : State) (r : Reg) (v : Byte) : State := { s with V := s.V.set r v }

/-- `I <- v` (R27). -/
def State.setI (s : State) (v : Word) : State := { s with I := v }

/-- `pc <- t` (R104). -/
def State.setPc (s : State) (t : Word) : State := { s with pc := t }

/-- `DT <- v` (R28). -/
def State.setDt (s : State) (v : Byte) : State := { s with dt := v }

/-- `ST <- v` (R28). -/
def State.setSt (s : State) (v : Byte) : State := { s with st := v }

/-- Memory replaced. -/
def State.setMem (s : State) (m : Memory) : State := { s with mem := m }

/-- The framebuffer replaced. -/
def State.setFb (s : State) (fb : Framebuffer) : State := { s with fb := fb }

/-- The general registers replaced. -/
def State.setV (s : State) (V : Vector Byte 16) : State := { s with V := V }

/-- The stack pointer and the stack replaced. -/
def State.setStack (s : State) (sp : Fin 17) (stack : Vector Word 16) : State :=
  { s with sp := sp, stack := stack }

/-- `fault <- f` (R34). -/
def State.setFault (s : State) (f : Option Fault) : State := { s with fault := f }

/-- `key_prev <- k` (R35). -/
def State.setKeyPrev (s : State) (k : Word) : State := { s with keyPrev := k }

/-- The Input Source sets the keypad flags (R36). -/
def State.setKeys (s : State) (k : Word) : State := { s with keys := k }

/-- One more random byte drawn (R37). -/
def State.drawn (s : State) : State := { s with draws := s.draws + 1 }

/-- What the agents outside do next. -/
def State.setDriver (s : State) (d : List Invocation) : State := { s with driver := d }

/-- A Step has been invoked (R64). -/
def State.markStepped (s : State) : State := { s with stepped := true }

/-! ## PC -/

/-- `pc <- pc0 + 2`, how an instruction with no `pc <-` line ends (R104). -/
def State.advance (s : State) : State := s.setPc (s.pc + 2)

/-- The conditional skip: `pc0 + 4` when the condition holds and `pc0 + 2` otherwise (R25). -/
def State.skipIf (s : State) (c : Bool) : State := s.setPc (if c then s.pc + 4 else s.pc + 2)

/-! ## Raising a fault, and Reset -/

/-- TAKING AN EXCEPTION. What a fault does: each staged write is discarded, the fault register holds the
cause, PC and everything else stay as before, and the core is HALTED; "control goes nowhere" (R217). It is
applied to the state before the instruction. -/
def raiseFault (s : State) (f : Fault) : Host.Outcome State Fault Refusal := .next (s.setFault (some f))

/-- The end of an instruction that may raise a fault: its staged writes are applied together, or a fault
discards them all (R105). -/
def settle (s : State) : Except Fault State → Host.Outcome State Fault Refusal
  | .ok t => .next t
  | .error f => raiseFault s f

/-- Reset (R240): the one way back from HALTED (R219). The keypad flags and the random source are inputs with
no reset value (R39), the parameters are fixed (R10) and the Driver goes on, so these stay (log entry 14). -/
def State.resetCore (s : State) : State :=
  { State.resetWith s.config with keys := s.keys, draws := s.draws, driver := s.driver }

/-! ## The call stack -/

/-- `STACK[SP] <- w; SP <- SP + 1`, or StackOverflow when 16 frames are in use (R123). -/
def State.push (s : State) (w : Word) : Except Fault State :=
  if h : s.sp.val < 16 then .ok (s.setStack ⟨s.sp.val + 1, by omega⟩ (s.stack.set s.sp.val w))
  else .error .stackOverflow

/-- `SP <- SP - 1` with the value of the entry that was on top, or StackUnderflow when there is none (R121). -/
def State.pop (s : State) : Except Fault (Word × State) :=
  if h : 0 < s.sp.val then
    .ok (s.stack[s.sp.val - 1]'(by omega), s.setStack ⟨s.sp.val - 1, by omega⟩ s.stack)
  else .error .stackUnderflow

/-! ## Memory -/

/-- The byte of memory at an address. -/
def State.byteAt (s : State) (a : Nat) : Byte := s.mem.read s.config a

/-- Whether `n` bytes from `base` lie inside the address space: the sum is an integer and is not wrapped;
no byte is always inside (R50, R65). -/
def blockFits (base n : Nat) : Bool := n == 0 || base + (n - 1) ≤ 4095

/-- The bytes of a block, or AddressFault before any effect (R52, R65); `MemRead(addr, 1)` is a block of
one byte. -/
def State.readBlock (s : State) (base n : Nat) : Except Fault (List Byte) :=
  if blockFits base n then .ok (s.mem.readAll s.config base n) else .error .addressFault

/-- A block stored, or AddressFault before any effect (R53, R65); `MemWrite(addr, 1, v)` is a block of one
byte. -/
def State.writeBlock (s : State) (base : Nat) (bs : List Byte) : Except Fault State :=
  if blockFits base bs.length then .ok (s.setMem (s.mem.writeAll s.config base bs))
  else .error .addressFault

/-- Opcode fetch, `MemRead(pc0, 2)`: AddressFault when `pc0 + 1 > 4095`, else the two bytes big-endian (R54). -/
def State.fetch (s : State) : Except Fault Word :=
  if s.pc.toNat + 1 > 4095 then .error .addressFault
  else .ok (s.byteAt s.pc.toNat ++ s.byteAt (s.pc.toNat + 1))

/-- The registers with consecutive ones, from number `i`, replaced by the bytes of a list (R166). -/
def fillRegs (V : Vector Byte 16) (i : Nat) : List Byte → Vector Byte 16
  | [] => V
  | b :: bs => fillRegs (V.setIfInBounds i b) (i + 1) bs

/-- The values of `V[0]` to `V[x]` (R165). -/
def State.regsUpTo (s : State) (x : Reg) : List Byte := s.V.toList.take (x.val + 1)

/-! ## Flag and result -/

/-- The two writes of a flag-writing instruction: "first the flag to V[15], then the result to V[X]", so that
the result wins when X = 15 (R147). -/
def State.setFlagThenResult (s : State) (x : Reg) (flag result : Byte) : State :=
  (s.setReg vf flag).setReg x result

/-! ## The sprite render engine -/

/-- The pixel at column `x`, row `y` (R32). -/
def pixel (fb : Framebuffer) (x : Fin 64) (y : Fin 32) : Bool := fb[y][x]

/-- The framebuffer with one pixel toggled: `FB[y][x] ^ 1` (R181). -/
def togglePixel (fb : Framebuffer) (x : Fin 64) (y : Fin 32) : Framebuffer :=
  fb.set y (fb[y].set x (!fb[y][x]))

/-- The column of sprite column `c` for the origin column `ox`: `(ox + c) mod 64` (R181). -/
def column (ox : Byte) (c : Nat) : Fin 64 := ⟨(ox.toNat + c) % 64, by omega⟩

/-- The row of sprite row `r` for the origin row `oy`: `(oy + r) mod 32` (R181). -/
def line (oy : Byte) (r : Nat) : Fin 32 := ⟨(oy.toNat + r) % 32, by omega⟩

/-- What the sprite engine works on: the framebuffer, and whether a lit pixel has been turned off. -/
structure Canvas where
  fb : Framebuffer
  hit : Bool
deriving DecidableEq, Repr

/-- One sprite bit at one pixel: a bit of 0 leaves it, a bit of 1 toggles it and is a collision when the
pixel is on (R181, R183). -/
def Canvas.plot (k : Canvas) (bit : Bool) (x : Fin 64) (y : Fin 32) : Canvas :=
  if bit then ⟨togglePixel k.fb x y, k.hit || pixel k.fb x y⟩ else k

/-- The columns from `c` on of one sprite row, `n` of them (R181). -/
def Canvas.plotColumns (k : Canvas) (row : Byte) (ox : Byte) (y : Fin 32) (c : Nat) : Nat → Canvas
  | 0 => k
  | n + 1 => (k.plot (spriteBit row c) (column ox c) y).plotColumns row ox y (c + 1) n

/-- One sprite row: "width fixed at 8 columns" (R181). -/
def Canvas.plotRow (k : Canvas) (row : Byte) (ox : Byte) (y : Fin 32) : Canvas :=
  k.plotColumns row ox y 0 8

/-- The sprite rows of a list, the first being row `r` (R181). -/
def Canvas.plotRows (k : Canvas) (ox oy : Byte) (r : Nat) : List Byte → Canvas
  | [] => k
  | row :: rows => (k.plotRow row ox (line oy r)).plotRows ox oy (r + 1) rows

/-- A sprite drawn with origin `(ox, oy)`: the framebuffer XORed with it, VF set to 1 on a collision and to 0
otherwise (R181). -/
def State.drawSprite (s : State) (ox oy : Byte) (rows : List Byte) : State :=
  let k := (Canvas.mk s.fb false).plotRows ox oy 0 rows
  (s.setFb k.fb).setReg vf (collision k.hit)

/-- The framebuffer with each pixel 0 (R180). -/
def blankScreen : Framebuffer := Vector.replicate 32 (Vector.replicate 64 false)

/-! ## Tick, and the end of a Step -/

/-- `Tick`: both timers, each at most one less and floored at 0; nothing else is read or written (R198). -/
def State.tick (s : State) : State := (s.setDt (ticked s.dt)).setSt (ticked s.st)

/-- COMMIT of R100: a Step that returns Ok ends with `key_prev <- keys`, a Step that faults does not (R106). -/
def State.commit (s : State) : State := if s.fault = none then s.setKeyPrev s.keys else s

/-- The tone output: "the current sound-timer value (nonzero ⇒ host should emit a tone)" (R28, R38). -/
def State.sound (s : State) : Byte := s.st

end Sys2Proof.Machine
end

