-- ==== Sys2Proof/Machine/Alu.lean ====
section
/-! DEFINITION. The meanings of the register, ALU and random instructions (spec/42_arith_logic.md). -/

namespace Sys2Proof.Machine

/-- `load-imm X,NN` (R141). -/
def execLoadImm (x : Reg) (nn : Byte) (s : State) : Host.Outcome State Fault Refusal :=
  .next (s.setReg x nn).advance

/-- `add-imm X,NN`, no flag (R142). -/
def execAddImm (x : Reg) (nn : Byte) (s : State) : Host.Outcome State Fault Refusal :=
  .next (s.setReg x (sumByte (s.reg x) nn)).advance

/-- `copy X,Y` (R143). -/
def execCopy (x y : Reg) (s : State) : Host.Outcome State Fault Refusal :=
  .next (s.setReg x (s.reg y)).advance

/-- `or X,Y`, no flag (R144). -/
def execOr (x y : Reg) (s : State) : Host.Outcome State Fault Refusal :=
  .next (s.setReg x (s.reg x ||| s.reg y)).advance

/-- `and X,Y`, no flag (R145). -/
def execAnd (x y : Reg) (s : State) : Host.Outcome State Fault Refusal :=
  .next (s.setReg x (s.reg x &&& s.reg y)).advance

/-- `xor X,Y`, no flag (R146). -/
def execXor (x y : Reg) (s : State) : Host.Outcome State Fault Refusal :=
  .next (s.setReg x (s.reg x ^^^ s.reg y)).advance

/-- `add X,Y`: VF is 1 when there is NO carry (R148). -/
def execAdd (x y : Reg) (s : State) : Host.Outcome State Fault Refusal :=
  .next (s.setFlagThenResult x (noCarry (s.reg x) (s.reg y)) (sumByte (s.reg x) (s.reg y))).advance

/-- `sub X,Y` (R149). -/
def execSub (x y : Reg) (s : State) : Host.Outcome State Fault Refusal :=
  .next (s.setFlagThenResult x (noBorrow (s.reg x) (s.reg y)) (diffByte (s.reg x) (s.reg y))).advance

/-- `shr X`; the Y field is ignored (R88, R150). -/
def execShr (x _y : Reg) (s : State) : Host.Outcome State Fault Refusal :=
  .next (s.setFlagThenResult x (shrOut (s.reg x)) (shrByte (s.reg x))).advance

/-- `subn X,Y` (R151). -/
def execSubn (x y : Reg) (s : State) : Host.Outcome State Fault Refusal :=
  .next (s.setFlagThenResult x (noBorrow (s.reg y) (s.reg x)) (diffByte (s.reg y) (s.reg x))).advance

/-- `shl X`; the Y field is ignored (R88, R152). -/
def execShl (x _y : Reg) (s : State) : Host.Outcome State Fault Refusal :=
  .next (s.setFlagThenResult x (shlOut (s.reg x)) (shlByte (s.reg x))).advance

/-- `rand X,NN`: the random byte is a free value, a fresh one for each draw (R37, R153; log entry 2). -/
def execRand (x : Reg) (nn : Byte) (s : State) : Host.Outcome State Fault Refusal :=
  .next (s.setReg x (Config.freeRandom s.draws &&& nn)).drawn.advance

end Sys2Proof.Machine
end

