-- ==== Sys2Proof/Machine/Control.lean ====
section
/-! DEFINITION. The meanings of the control flow instructions (spec/41_control_flow.md). -/

namespace Sys2Proof.Machine

/-- `return` (R121). -/
def execReturn (s : State) : Host.Outcome State Fault Refusal :=
  settle s (s.pop.map fun p => p.2.setPc p.1)

/-- `jump NNN` (R122). -/
def execJump (nnn : BitVec 12) (s : State) : Host.Outcome State Fault Refusal :=
  .next (s.setPc (zext16 nnn))

/-- `call NNN` (R123). -/
def execCall (nnn : BitVec 12) (s : State) : Host.Outcome State Fault Refusal :=
  settle s ((s.push (s.pc + 2)).map (·.setPc (zext16 nnn)))

/-- `skip-eq-imm X,NN` (R124). -/
def execSkipEqImm (x : Reg) (nn : Byte) (s : State) : Host.Outcome State Fault Refusal :=
  .next (s.skipIf (s.reg x == nn))

/-- `skip-ne-imm X,NN` (R125). -/
def execSkipNeImm (x : Reg) (nn : Byte) (s : State) : Host.Outcome State Fault Refusal :=
  .next (s.skipIf (s.reg x != nn))

/-- `skip-eq-reg X,Y` (R126). -/
def execSkipEqReg (x y : Reg) (s : State) : Host.Outcome State Fault Refusal :=
  .next (s.skipIf (s.reg x == s.reg y))

/-- `skip-ne-reg X,Y` (R127). -/
def execSkipNeReg (x y : Reg) (s : State) : Host.Outcome State Fault Refusal :=
  .next (s.skipIf (s.reg x != s.reg y))

/-- `jump-offset NNN`: the offset register is always V0 (R128). -/
def execJumpOffset (nnn : BitVec 12) (s : State) : Host.Outcome State Fault Refusal :=
  .next (s.setPc (offsetTarget nnn (s.reg 0)))

end Sys2Proof.Machine
end

