-- ==== Sys2Proof/Machine/Display.lean ====
section
/-! DEFINITION. The meanings of the display instructions (spec/44_display.md). -/

namespace Sys2Proof.Machine

/-- `clear-screen`; VF is not written (R180). -/
def execClearScreen (s : State) : Host.Outcome State Fault Refusal :=
  .next (s.setFb blankScreen).advance

/-- `draw X,Y,N`: the origin is sampled before VF is written; no row for N = 0 (R181). -/
def execDraw (x y : Reg) (n : BitVec 4) (s : State) : Host.Outcome State Fault Refusal :=
  settle s ((s.readBlock s.I.toNat n.toNat).map fun rows => (s.drawSprite (s.reg x) (s.reg y) rows).advance)

end Sys2Proof.Machine
end

