-- ==== Sys2Proof/Machine/IndexMemory.lean ====
section
/-! DEFINITION. The meanings of the index register and memory block instructions (spec/43_index_memory.md).
Addresses are register-indirect through I, ascending, unwrapped (R163). -/

namespace Sys2Proof.Machine

/-- `load-I NNN` (R160). -/
def execLoadI (nnn : BitVec 12) (s : State) : Host.Outcome State Fault Refusal :=
  .next (s.setI (zext16 nnn)).advance

/-- `add-I X`: modulo 4096, no flag (R161). -/
def execAddI (x : Reg) (s : State) : Host.Outcome State Fault Refusal :=
  .next (s.setI (addIndex s.I (s.reg x))).advance

/-- `font-addr X` (R162). -/
def execFontAddr (x : Reg) (s : State) : Host.Outcome State Fault Refusal :=
  .next (s.setI (glyphAddress s.config (s.reg x))).advance

/-- `store-BCD X` (R164). -/
def execStoreBCD (x : Reg) (s : State) : Host.Outcome State Fault Refusal :=
  settle s ((s.writeBlock s.I.toNat (bcdDigits (s.reg x))).map (·.advance))

/-- `reg-dump X`: `V[0]` to `V[X]` inclusive (R165). -/
def execRegDump (x : Reg) (s : State) : Host.Outcome State Fault Refusal :=
  settle s ((s.writeBlock s.I.toNat (s.regsUpTo x)).map (·.advance))

/-- `reg-load X`: `V[0]` to `V[X]` inclusive (R166). -/
def execRegLoad (x : Reg) (s : State) : Host.Outcome State Fault Refusal :=
  settle s ((s.readBlock s.I.toNat (x.val + 1)).map fun bs => (s.setV (fillRegs s.V 0 bs)).advance)

end Sys2Proof.Machine
end

