-- ==== Sys2Proof/Machine/TimerKeypad.lean ====
section
/-! DEFINITION. The meanings of the keypad and timer instructions (spec/45_timer_input.md). -/

namespace Sys2Proof.Machine

/-- `skip-key-pressed X` (R191). -/
def execSkipKeyPressed (x : Reg) (s : State) : Host.Outcome State Fault Refusal :=
  .next (s.skipIf (keyPressed s.keys (s.reg x)))

/-- `skip-key-not-pressed X` (R192). -/
def execSkipKeyNotPressed (x : Reg) (s : State) : Host.Outcome State Fault Refusal :=
  .next (s.skipIf (!keyPressed s.keys (s.reg x)))

/-- `get-delay X` (R193). -/
def execGetDelay (x : Reg) (s : State) : Host.Outcome State Fault Refusal :=
  .next (s.setReg x s.dt).advance

/-- `wait-key X`: with no newly pressed key it stays on itself, `pc <- pc0`; else the least new key goes to
`V[X]` (R194). -/
def execWaitKey (x : Reg) (s : State) : Host.Outcome State Fault Refusal :=
  match leastKey (newKeys s.keys s.keyPrev) with
  | none => .next (s.setPc s.pc)
  | some k => .next (s.setReg x (BitVec.ofNat 8 k)).advance

/-- `set-delay X` (R195). -/
def execSetDelay (x : Reg) (s : State) : Host.Outcome State Fault Refusal :=
  .next (s.setDt (s.reg x)).advance

/-- `set-sound X` (R196). -/
def execSetSound (x : Reg) (s : State) : Host.Outcome State Fault Refusal :=
  .next (s.setSt (s.reg x)).advance

end Sys2Proof.Machine
end

