-- ==== Sys2Proof/WellFormed.lean ====
section
/-! DEFINITION. Well-formedness: which 16-bit words are opcodes, by the match and mask of each row of the
table of spec/30_encoding.md R80 (the decoder of R82 is written apart from it, in Decode.lean), and which
byte sequences are loadable images. A term of `Instr` needs no check of its own: its operand types hold
exactly the values of the fields of R76, and R78 makes all of them legal. -/

namespace Sys2Proof

/-- A row of the table of R80: a word `w` selects the row when `w & mask == match`. -/
structure OpcodeRow where
  mnemonic : String
  pattern : Word
  mask : Word
deriving DecidableEq, Repr

/-- "an opcode `w` selects the row when `w & mask == match`" (R80). -/
def OpcodeRow.selects (r : OpcodeRow) (w : Word) : Bool := w &&& r.mask == r.pattern

/-- Rows 1 to 9 of R80. -/
def opcodeRowsLow : List OpcodeRow :=
  [⟨"clear-screen", 0x00E0, 0xFFFF⟩, ⟨"return", 0x00EE, 0xFFFF⟩, ⟨"jump", 0x1000, 0xF000⟩,
   ⟨"call", 0x2000, 0xF000⟩, ⟨"skip-eq-imm", 0x3000, 0xF000⟩, ⟨"skip-ne-imm", 0x4000, 0xF000⟩,
   ⟨"skip-eq-reg", 0x5000, 0xF00F⟩, ⟨"load-imm", 0x6000, 0xF000⟩, ⟨"add-imm", 0x7000, 0xF000⟩]

/-- Rows 10 to 18 of R80, class 0x8. -/
def opcodeRowsAlu : List OpcodeRow :=
  [⟨"copy", 0x8000, 0xF00F⟩, ⟨"or", 0x8001, 0xF00F⟩, ⟨"and", 0x8002, 0xF00F⟩,
   ⟨"xor", 0x8003, 0xF00F⟩, ⟨"add", 0x8004, 0xF00F⟩, ⟨"sub", 0x8005, 0xF00F⟩,
   ⟨"shr", 0x8006, 0xF00F⟩, ⟨"subn", 0x8007, 0xF00F⟩, ⟨"shl", 0x800E, 0xF00F⟩]

/-- Rows 19 to 25 of R80. -/
def opcodeRowsHigh : List OpcodeRow :=
  [⟨"skip-ne-reg", 0x9000, 0xF00F⟩, ⟨"load-I", 0xA000, 0xF000⟩, ⟨"jump-offset", 0xB000, 0xF000⟩,
   ⟨"rand", 0xC000, 0xF000⟩, ⟨"draw", 0xD000, 0xF000⟩, ⟨"skip-key-pressed", 0xE09E, 0xF0FF⟩,
   ⟨"skip-key-not-pressed", 0xE0A1, 0xF0FF⟩]

/-- Rows 26 to 34 of R80, class 0xF. -/
def opcodeRowsMisc : List OpcodeRow :=
  [⟨"get-delay", 0xF007, 0xF0FF⟩, ⟨"wait-key", 0xF00A, 0xF0FF⟩, ⟨"set-delay", 0xF015, 0xF0FF⟩,
   ⟨"set-sound", 0xF018, 0xF0FF⟩, ⟨"add-I", 0xF01E, 0xF0FF⟩, ⟨"font-addr", 0xF029, 0xF0FF⟩,
   ⟨"store-BCD", 0xF033, 0xF0FF⟩, ⟨"reg-dump", 0xF055, 0xF0FF⟩, ⟨"reg-load", 0xF065, 0xF0FF⟩]

/-- The opcode map of R80, its 34 rows in the order of the table. -/
def opcodeRows : List OpcodeRow :=
  opcodeRowsLow ++ opcodeRowsAlu ++ opcodeRowsHigh ++ opcodeRowsMisc

/-- The rows a word selects; R79 and R82 say that there is at most one. -/
def rowsOf (w : Word) : List OpcodeRow := opcodeRows.filter (·.selects w)

/-- A word is an opcode when it selects a row of R80; each other word is illegal (R87). -/
def wellFormedOpcode (w : Word) : Bool := opcodeRows.any (·.selects w)

/-- The longest loadable image, 4096 - 0x200 bytes (R5, R64). -/
abbrev maxImage : Nat := 3584

/-- An image that Load accepts: "Images larger than `4096 − 0x200` bytes are a load-time fault" (R64). -/
def wellFormedImage (image : List Byte) : Bool := image.length ≤ maxImage

end Sys2Proof
end

