-- ==== Sys2Proof/Machine/Cycle.lean ====
section
/-! DEFINITION. The fetch-decode-execute cycle (spec/40_step_cycle.md R100) and the other invocations: Tick
(spec/45_timer_input.md R198), Load (spec/20_memory.md R64), Reset (spec/70_reset_and_hazards.md R240) and
the Input Source's change of the keypad flags (spec/10_state.md R36). -/

namespace Sys2Proof.Machine

/-- What a Step does after EXECUTE: COMMIT of R100. -/
def commitOutcome : Host.Outcome State Fault Refusal → Host.Outcome State Fault Refusal
  | .next t => .next t.commit
  | .fault f => .fault f
  | .refused r => .refused r

/-- DECODE and EXECUTE of a fetched word (R100, R102, R103). -/
def runOpcode (w : Word) (s : State) : Host.Outcome State Fault Refusal :=
  match decode w with
  | .rejected _ => raiseFault s .decodeFault
  | .instr i => commitOutcome (exec i s)

/-- The phases of a Step of a RUNNING core, in the order of R216. -/
def runningStep (s : State) : Host.Outcome State Fault Refusal :=
  match s.fetch with
  | .error f => raiseFault s f
  | .ok w => runOpcode w s

/-- `Step` (R100): a HALTED core fetches nothing and changes nothing, and its fault register goes on naming
the cause (R107). -/
def coreStep (s : State) : Host.Outcome State Fault Refusal :=
  match s.fault with
  | some _ => .next s
  | none => runningStep s

/-- The result of a Step, read off the state after it: `none` for Ok, else the cause (R100, R109). -/
def State.stepResult (s : State) : Option Fault := s.fault

/-- `Load` (R64): the image is written from 0x200, or is too long and the core is HALTED with LoadFault,
memory unchanged (R215). After the first Step a Load has no meaning (log entry 7). -/
def load (image : List Byte) (s : State) : Host.Outcome State Fault Refusal :=
  if s.stepped then .refused .loadAfterFirstStep
  else if image.length > maxImage then raiseFault s .loadFault
  else .next (s.setMem (s.mem.writeAll s.config 0x200 image))

/-- One invocation by an agent outside the core; each is atomic (R9). -/
def invoke (m : Invocation) (s : State) : Host.Outcome State Fault Refusal :=
  match m with
  | .step => coreStep s.markStepped
  | .tick => .next s.tick
  | .setKeys levels => .next (s.setKeys levels)
  | .load image => load image s
  | .reset => .next s.resetCore

/-- The invocation that comes next: the first of the Driver's list, or a Step when it lists none (R9; log
entry 4). -/
def invokeNext (s : State) : Host.Outcome State Fault Refusal :=
  match s.driver with
  | [] => invoke .step s
  | m :: rest => invoke m (s.setDriver rest)

/-- A state whose next step is the Step that fetches the given opcode: the core RUNNING, the Driver about
to invoke Step, and the two bytes at PC (at 0x200 where PC is no address a fetch can succeed at). -/
def State.placeOpcode (s : State) (w : Word) : State :=
  let at0 : Word := if s.pc.toNat + 1 > 4095 then 0x200 else s.pc
  ((((s.setFault none).setDriver []).setPc at0).setMem
    (s.mem.writeAll s.config at0.toNat [highByte w, lowByte w]))

end Sys2Proof.Machine
end

