-- ==== Sys2Proof/Machine/Step.lean ====
section
/-! DEFINITION. The step of the machine, and the placing of an instruction where it fetches. -/

namespace Sys2Proof.Machine

/-- One transition of the machine (R9): the next invocation, which is a Step (R100) where nothing else is
listed. -/
def step (s : State) : Host.Outcome State Fault Refusal := invokeNext s

/-- The state with the instruction of `nbits` bits `w` placed so that the very next step fetches and runs it
(log entry 12). -/
def State.withFetchWord (s : State) (nbits w : Nat) : State :=
  s.placeOpcode (BitVec.ofNat 16 (w % 2 ^ nbits))

end Sys2Proof.Machine
end

