-- ==== Sys2Proof/Safety.lean ====
section
/-! DEFINITION. The terms in which claims are stated: what two states agree on, what an instruction may write
(the frame the spec gives it), the invariant of the machine, and a run without a fault. -/

namespace Sys2Proof.Machine

/-- The elements of State, as frames name them; `stack` is SP and STACK together. -/
inductive Part where
  | V | I | pc | stack | mem | fb | dt | st | fault | keyPrev | keys | draws | config | driver | stepped
deriving DecidableEq, Repr

/-- Two states agree on an element; memory through the read of each byte. -/
def Part.same (s t : State) : Part → Prop
  | .V => t.V = s.V
  | .I => t.I = s.I
  | .pc => t.pc = s.pc
  | .stack => t.sp = s.sp ∧ t.stack = s.stack
  | .mem => ∀ a, t.byteAt a = s.byteAt a
  | .fb => t.fb = s.fb
  | .dt => t.dt = s.dt
  | .st => t.st = s.st
  | .fault => t.fault = s.fault
  | .keyPrev => t.keyPrev = s.keyPrev
  | .keys => t.keys = s.keys
  | .draws => t.draws = s.draws
  | .config => t.config = s.config
  | .driver => t.driver = s.driver
  | .stepped => t.stepped = s.stepped

/-- From `s` to `t` nothing changes but the listed elements. -/
def OnlyChanges (changed : List Part) (s t : State) : Prop := ∀ p, p ∉ changed → p.same s t

end Sys2Proof.Machine

namespace Sys2Proof

open Machine

/-- The elements that the rule of an instruction writes when it raises no fault (files 41 to 45 of the spec;
R25, R27 to R29, R32, R57). `draws` is the model's count of random bytes. -/
def Instr.writes : Instr → List Part
  | .clearScreen => [.fb, .pc]
  | .ret => [.stack, .pc]
  | .jump _ => [.pc]
  | .call _ => [.stack, .pc]
  | .skipEqImm _ _ => [.pc]
  | .skipNeImm _ _ => [.pc]
  | .skipEqReg _ _ => [.pc]
  | .loadImm _ _ => [.V, .pc]
  | .addImm _ _ => [.V, .pc]
  | .copy _ _ => [.V, .pc]
  | .or _ _ => [.V, .pc]
  | .and _ _ => [.V, .pc]
  | .xor _ _ => [.V, .pc]
  | .add _ _ => [.V, .pc]
  | .sub _ _ => [.V, .pc]
  | .shr _ _ => [.V, .pc]
  | .subn _ _ => [.V, .pc]
  | .shl _ _ => [.V, .pc]
  | .skipNeReg _ _ => [.pc]
  | .loadI _ => [.I, .pc]
  | .jumpOffset _ => [.pc]
  | .rand _ _ => [.V, .draws, .pc]
  | .draw _ _ _ => [.V, .fb, .pc]
  | .skipKeyPressed _ => [.pc]
  | .skipKeyNotPressed _ => [.pc]
  | .getDelay _ => [.V, .pc]
  | .waitKey _ => [.V, .pc]
  | .setDelay _ => [.dt, .pc]
  | .setSound _ => [.st, .pc]
  | .addI _ => [.I, .pc]
  | .fontAddr _ => [.I, .pc]
  | .storeBCD _ => [.mem, .pc]
  | .regDump _ => [.mem, .pc]
  | .regLoad _ => [.V, .pc]

/-- The registers that the rule of an instruction writes: its destination, VF for the writers of R23, and
`V[0]` to `V[X]` for reg-load. -/
def Instr.writesReg (r : Reg) : Instr → Bool
  | .clearScreen => false
  | .ret => false
  | .jump _ => false
  | .call _ => false
  | .skipEqImm _ _ => false
  | .skipNeImm _ _ => false
  | .skipEqReg _ _ => false
  | .loadImm x _ => r == x
  | .addImm x _ => r == x
  | .copy x _ => r == x
  | .or x _ => r == x
  | .and x _ => r == x
  | .xor x _ => r == x
  | .add x _ => r == x || r == vf
  | .sub x _ => r == x || r == vf
  | .shr x _ => r == x || r == vf
  | .subn x _ => r == x || r == vf
  | .shl x _ => r == x || r == vf
  | .skipNeReg _ _ => false
  | .loadI _ => false
  | .jumpOffset _ => false
  | .rand x _ => r == x
  | .draw _ _ _ => r == vf
  | .skipKeyPressed _ => false
  | .skipKeyNotPressed _ => false
  | .getDelay x => r == x
  | .waitKey x => r == x
  | .setDelay _ => false
  | .setSound _ => false
  | .addI _ => false
  | .fontAddr _ => false
  | .storeBCD _ => false
  | .regDump _ => false
  | .regLoad x => r ≤ x

/-- How many bytes an instruction stores, all from address I upward (R57, R163); only two instructions store. -/
def Instr.bytesStored : Instr → Nat
  | .storeBCD _ => 3
  | .regDump x => x.val + 1
  | .clearScreen | .ret | .jump _ | .call _ | .skipEqImm _ _ | .skipNeImm _ _ | .skipEqReg _ _
  | .loadImm _ _ | .addImm _ _ | .copy _ _ | .or _ _ | .and _ _ | .xor _ _ | .add _ _ | .sub _ _
  | .shr _ _ | .subn _ _ | .shl _ _ | .skipNeReg _ _ | .loadI _ | .jumpOffset _ | .rand _ _
  | .draw _ _ _ | .skipKeyPressed _ | .skipKeyNotPressed _ | .getDelay _ | .waitKey _ | .setDelay _
  | .setSound _ | .addI _ | .fontAddr _ | .regLoad _ => 0

/-- The one fault that an instruction can raise in EXECUTE (R216). -/
def Instr.executeFault : Instr → Option Fault
  | .call _ => some .stackOverflow
  | .ret => some .stackUnderflow
  | .storeBCD _ => some .addressFault
  | .regDump _ => some .addressFault
  | .regLoad _ => some .addressFault
  | .draw _ _ _ => some .addressFault
  | .clearScreen | .jump _ | .skipEqImm _ _ | .skipNeImm _ _ | .skipEqReg _ _ | .loadImm _ _
  | .addImm _ _ | .copy _ _ | .or _ _ | .and _ _ | .xor _ _ | .add _ _ | .sub _ _ | .shr _ _
  | .subn _ _ | .shl _ _ | .skipNeReg _ _ | .loadI _ | .jumpOffset _ | .rand _ _ | .skipKeyPressed _
  | .skipKeyNotPressed _ | .getDelay _ | .waitKey _ | .setDelay _ | .setSound _ | .addI _
  | .fontAddr _ => none

end Sys2Proof

namespace Sys2Proof.Machine

/-- The invariant of the machine: I is at most 4095 (R27), PC at most 0x10FE (R25), each stack entry at most
4096 (R121), and memory is in its canonical form inside the 4096 addresses (R50). -/
structure State.Inv (s : State) : Prop where
  index_in_memory : s.I.toNat ≤ 4095
  pc_bounded : s.pc.toNat ≤ 0x10FE
  stack_bounded : ∀ k : Fin 16, s.stack[k].toNat ≤ 4096
  mem_canonical : s.mem.wf s.config

/-- A run of `n` steps in which no Step or Load raises a fault and nothing is refused: what R218 asks a claim
about a program to show. -/
def RunsWithoutFault : Nat → State → Prop
  | 0, s => s.fault = none
  | n + 1, s => s.fault = none ∧ ∃ t, step s = .next t ∧ RunsWithoutFault n t

end Sys2Proof.Machine
end

