-- ==== Sys2Proof/Certificates/Slice0/Obligations.lean ====
section
/-! DEFINITION. The statements about the machine, for the provers. Where a statement rests on a decision of the
spec (92_eei_decisions.md) or on an opcode value that the spec supplies from general knowledge
(93_implementation_defined.md U1), its docstring names it. -/

namespace Sys2Proof.Statements

open Machine

/-! ## Words as the "Encoding:" lines of files 41 to 45 write them -/

/-- A register number shifted to bits 11:8. -/
def atX (x : Reg) : Word := BitVec.ofNat 16 x.val <<< 8

/-- A register number shifted to bits 7:4. -/
def atY (y : Reg) : Word := BitVec.ofNat 16 y.val <<< 4

/-- `base | NNN`. -/
def wordNNN (base : Word) (nnn : BitVec 12) : Word := base ||| nnn.setWidth 16

/-- `base | X<<8 | NN`. -/
def wordXNN (base : Word) (x : Reg) (nn : Byte) : Word := base ||| atX x ||| nn.setWidth 16

/-- `base | X<<8 | Y<<4`. -/
def wordXY (base : Word) (x y : Reg) : Word := base ||| atX x ||| atY y

/-- `base | X<<8 | Y<<4 | N`. -/
def wordXYN (base : Word) (x y : Reg) (n : BitVec 4) : Word := base ||| atX x ||| atY y ||| n.setWidth 16

/-- `base | X<<8`. -/
def wordX (base : Word) (x : Reg) : Word := base ||| atX x

/-! ## Shapes of results -/

/-- The outcome is a next state that keeps everything but PC and the listed elements, with PC two further on. -/
def Completes (o : Host.Outcome State Fault Refusal) (s : State) (changed : List Part) (p : State → Prop) : Prop :=
  ∃ t, o = .next t ∧ t.pc = s.pc + 2 ∧ OnlyChanges (.pc :: changed) s t ∧ p t

/-- The outcome writes one register and nothing else; PC is two further on. -/
def SetsRegister (o : Host.Outcome State Fault Refusal) (s : State) (x : Reg) (v : Nat) : Prop :=
  Completes o s [.V] fun t => (t.reg x).toNat = v ∧ ∀ r, r ≠ x → t.reg r = s.reg r

/-- The outcome writes the result to `V[X]` and the flag to VF, the result alone when X = 15; nothing else
changes; PC is two further on. -/
def SetsFlagAndRegister (o : Host.Outcome State Fault Refusal) (s : State) (x : Reg) (flag v : Nat) : Prop :=
  Completes o s [.V] fun t =>
    (t.reg x).toNat = v ∧ (x ≠ 15 → (t.reg 15).toNat = flag) ∧ ∀ r, r ≠ x → r ≠ 15 → t.reg r = s.reg r

/-- The outcome sets PC and changes nothing else. -/
def SetsPc (o : Host.Outcome State Fault Refusal) (s : State) (target : Word) : Prop :=
  ∃ t, o = .next t ∧ t.pc = target ∧ OnlyChanges [.pc] s t

/-- The outcome of an instruction that raises a fault: the fault register holds the cause and every other
element is exactly as before, PC included. -/
def Raises (o : Host.Outcome State Fault Refusal) (s : State) (f : Fault) : Prop :=
  o = .next { s with fault := some f }

/-- Key `k` is pressed now and was not at the last completed Step. -/
def newlyPressed (s : State) (k : Nat) : Prop := s.keys.getLsbD k = true ∧ s.keyPrev.getLsbD k = false

/-- The sprite of `n` rows at address I with origin `(ox, oy)` has a 1 bit that maps to pixel `(px, py)`. -/
def SpriteCovers (s : State) (ox oy n : Nat) (px : Fin 64) (py : Fin 32) : Prop :=
  ∃ r c, r < n ∧ c < 8 ∧ (s.byteAt (s.I.toNat + r)).getLsbD (7 - c) = true ∧
    px.val = (ox + c) % 64 ∧ py.val = (oy + r) % 32

/-- From `s` to `t` at least one pixel that was on was turned off. -/
def TurnsOffAPixel (s t : State) : Prop :=
  ∃ px py, pixel s.fb px py = true ∧ pixel t.fb px py = false

end Sys2Proof.Statements

open Sys2Proof Sys2Proof.Machine Sys2Proof.Statements

/-! ## Encoding -/

/-- R76 to R82: no bit of an encoding is dropped, the Y field of shr and shl among them, which the model keeps
as an operand (log entry 13, DESIGN CHOICE). Opcode values: U1, log entry 11. -/
def Obligations.DecodeInvertsEncode : Prop := ∀ i : Instr, decode (encode i) = .instr i

/-- Each word has one meaning (R79), and an instruction is decoded from its own word only. The second half is the
model's: it holds because matching is strict (D1, log entry 10) and because shr and shl keep the Y field, whose
16 values are one instruction in R88, as an operand (log entry 13, DESIGN CHOICE). Values: U1, log entry 11. -/
def Obligations.EncodeInvertsDecode : Prop := ∀ (w : Word) (i : Instr), decode w = .instr i → encode i = w

/-- R80, R82: the decoder "agrees with the match/mask table": a decoded word selects exactly the row of
its instruction, a rejected word selects none. Strict matching is D1; values U1 (log entry 11). -/
def Obligations.DecodeFollowsOpcodeTable : Prop :=
  ∀ w : Word, match decode w with
    | .instr i => (rowsOf w).map (·.mnemonic) = [i.mnemonic]
    | .rejected _ => rowsOf w = []

/-- R54, R55, R75: the bytes of an instruction, high byte first, decode to it whatever follows. -/
def Obligations.InstructionBytesAreBigEndian : Prop :=
  ∀ (i : Instr) (rest : List Byte),
    decodeBytes (encodeBytes i ++ rest) = .instr i ∧ encode i = highByte (encode i) ++ lowByte (encode i)

/-- R81 (a): the five worked opcodes of the document, as bytes. -/
def Obligations.WorkedOpcodesDecode : Prop :=
  decodeBytes [0x60, 0x05] = .instr (.loadImm 0 5) ∧ decodeBytes [0x70, 0x0A] = .instr (.addImm 0 10) ∧
  decodeBytes [0x22, 0x10] = .instr (.call 0x210) ∧ decodeBytes [0x00, 0xEE] = .instr .ret ∧
  decodeBytes [0x80, 0x14] = .instr (.add 0 1)

/-- The placing of an instruction for the very next step (log entry 12, the model's own operation): the core
is RUNNING, the Driver invokes Step, and the fetch reads the placed word. -/
def Obligations.PlacedInstructionIsFetched : Prop :=
  ∀ (s : State) (w : Word), let t := s.withFetchWord 16 w.toNat
    t.fault = none ∧ t.driver = [] ∧ t.fetch = .ok w

/-! ## The Step -/

/-- R100, R103, R106: when the two bytes at PC decode to an instruction, a Step of a RUNNING core is the meaning
of that instruction and of no other, and where no fault is raised `key_prev` then takes `keys`. `stepped` is
the model's own record (log entry 7); the Step comes from an empty Driver list or from its head (log entry 4). -/
def Obligations.StepRunsTheDecodedInstruction : Prop :=
  ∀ (s : State) (i : Instr), s.fault = none → s.pc.toNat ≤ 4094 →
    decodeBytes [s.byteAt s.pc.toNat, s.byteAt (s.pc.toNat + 1)] = .instr i →
    let run := fun u : State => match exec i { u with stepped := true } with
      | .next t => Host.Outcome.next (if t.fault = none then { t with keyPrev := t.keys } else t)
      | .fault f => .fault f
      | .refused r => .refused r
    (s.driver = [] → step s = run s) ∧
    (∀ rest, s.driver = .step :: rest → step s = run { s with driver := rest })

/-- R54, R211 (a): a fetch at PC above 4094 raises AddressFault; PC and all else stay (R217, D4). -/
def Obligations.FetchBeyondMemoryFaults : Prop :=
  ∀ s : State, s.driver = [] → s.fault = none → 4094 < s.pc.toNat →
    step s = .next { s with stepped := true, fault := some .addressFault }

/-- R86, R87, R214: a fetched word that selects no row of the table raises DecodeFault and nothing else happens
(strict matching: D1; state after a fault: D4). -/
def Obligations.IllegalOpcodeFaults : Prop :=
  ∀ s : State, s.driver = [] → s.fault = none → s.pc.toNat ≤ 4094 →
    wellFormedOpcode (s.byteAt s.pc.toNat ++ s.byteAt (s.pc.toNat + 1)) = false →
    step s = .next { s with stepped := true, fault := some .decodeFault }

/-- R107, R218 (D4): a Step of a HALTED core changes no element, `key_prev` and the stored cause included. -/
def Obligations.HaltedStepChangesNothing : Prop :=
  ∀ s : State, s.driver = [] → s.fault ≠ none → step s = .next { s with stepped := true }

/-- R217 (D4): a Step that raises a fault leaves every element as before, PC included, but for the fault
register. -/
def Obligations.FaultingStepIsPrecise : Prop :=
  ∀ s t : State, s.driver = [] → s.fault = none → step s = .next t → t.fault ≠ none →
    t = { s with stepped := true, fault := t.fault }

/-- R106 (D14, D21): a Step that returns Ok ends with `key_prev <- keys`, and no Step writes `keys` (R110). -/
def Obligations.CompletedStepSamplesTheKeypad : Prop :=
  ∀ s t : State, s.driver = [] → step s = .next t → t.keys = s.keys ∧ (t.fault = none → t.keyPrev = s.keys)

/-- R216 (D6): every instruction answers a next state in every state, and either raises no fault or raises the
one fault that its rule names, with nothing else changed (R217, D4). -/
def Obligations.InstructionsRaiseOnlyTheirOwnFault : Prop :=
  ∀ (i : Instr) (s : State), ∃ t, exec i s = .next t ∧
    (t.fault = s.fault ∨ ∃ f, i.executeFault = some f ∧ t = { s with fault := some f })

/-- R25, R50, R121: the invariant is kept by every step, whatever is invoked, from every state that meets it. -/
def Obligations.EveryStepKeepsTheInvariant : Prop :=
  ∀ s t : State, s.Inv → step s = .next t → t.Inv

/-- R39: the state after Reset meets the invariant, with every admissible font. -/
def Obligations.ResetMeetsTheInvariant : Prop := ∀ c : Config, (State.resetWith c).Inv

/-- From a HALTED core each step but a Reset leads to a HALTED core, and a Reset leads to a RUNNING one whose
memory holds the reset contents (R219: "The only way back to RUNNING is Reset", "which also destroys the program").
It rests on the spec's decisions and the model's choices: the sticky fault register is D4 (log entries 1 and 10);
a Reset that erases memory is D29 (R240), what memory then reads as is log entry 6 (font: D10, D11); a Load that
does not clear a fault is log entry 7; the Driver's list of invocations is log entry 4. -/
def Obligations.OnlyResetLeavesTheHaltedState : Prop :=
  ∀ s t : State, s.fault ≠ none → step s = .next t →
    (s.driver.head? ≠ some .reset → t.fault ≠ none) ∧
    (s.driver.head? = some .reset → t.fault = none ∧ ∀ a, t.byteAt a = Memory.background s.config a)

/-- R107, R218, R220 (D4, D30): along every run in which neither Reset nor Load is invoked, a HALTED core keeps
its first cause, and only the timers, the keypad flags and the model's own fields move. -/
def Obligations.HaltedRunsKeepTheFirstCause : Prop :=
  ∀ (n : Nat) (s t : State), s.fault ≠ none → .reset ∉ s.driver → (∀ image, .load image ∉ s.driver) →
    Host.Core.run core n s = .next t → OnlyChanges [.dt, .st, .keys, .driver, .stepped] s t

/-- R20, R25, R27 to R29, R57: the frame of every instruction. What is not written by its rule stays, no
register but those its rule names changes, and every byte outside the stored block reads as before. -/
def Obligations.EveryInstructionKeepsItsFrame : Prop :=
  ∀ (i : Instr) (s t : State), exec i s = .next t →
    OnlyChanges (.fault :: i.writes) s t ∧
    (∀ r, i.writesReg r = false → t.reg r = s.reg r) ∧
    (∀ a, ¬(s.I.toNat ≤ a ∧ a < s.I.toNat + i.bytesStored) → t.byteAt a = s.byteAt a)

/-- R184: "Nobody writes it but these two instructions and Reset". -/
def Obligations.OnlyDisplayInstructionsAndResetWriteTheScreen : Prop :=
  (∀ (i : Instr) (s t : State), exec i s = .next t → t.fb ≠ s.fb →
    i = .clearScreen ∨ ∃ x y n, i = .draw x y n) ∧
  (∀ (m : Invocation) (s t : State), invoke m s = .next t → t.fb ≠ s.fb → m = .step ∨ m = .reset)

/-- R104, and R25 for the values (D9 for the sum of jump-offset): PC after each instruction that raises no fault; an
instruction that raises one leaves PC where it is (R217, D4). -/
def Obligations.ProgramCounterAfterEveryInstruction : Prop :=
  ∀ (i : Instr) (s t : State), s.fault = none → exec i s = .next t →
    (t.fault ≠ none → t.pc = s.pc) ∧
    (t.fault = none → match i with
      | .ret => ∀ k : Fin 16, s.sp.val = k.val + 1 → t.pc = s.stack[k]
      | .jump nnn | .call nnn => t.pc.toNat = nnn.toNat
      | .jumpOffset nnn => t.pc.toNat = nnn.toNat + (s.reg 0).toNat
      | .skipEqImm x nn => t.pc = if s.reg x = nn then s.pc + 4 else s.pc + 2
      | .skipNeImm x nn => t.pc = if s.reg x ≠ nn then s.pc + 4 else s.pc + 2
      | .skipEqReg x y => t.pc = if s.reg x = s.reg y then s.pc + 4 else s.pc + 2
      | .skipNeReg x y => t.pc = if s.reg x ≠ s.reg y then s.pc + 4 else s.pc + 2
      | .skipKeyPressed x => t.pc = if s.keys.getLsbD ((s.reg x).toNat % 16) then s.pc + 4 else s.pc + 2
      | .skipKeyNotPressed x => t.pc = if s.keys.getLsbD ((s.reg x).toNat % 16) then s.pc + 2 else s.pc + 4
      | .waitKey _ => ((∃ k, k < 16 ∧ newlyPressed s k) → t.pc = s.pc + 2) ∧
          ((∀ k, k < 16 → ¬newlyPressed s k) → t.pc = s.pc)
      | _ => t.pc = s.pc + 2)

/-! ## Register, ALU and random instructions -/

/-- R141. -/
def Obligations.LoadImmediateWritesItsRegister : Prop :=
  ∀ (x : Reg) (nn : Byte) (s : State), decode (wordXNN 0x6000 x nn) = .instr (.loadImm x nn) ∧
    SetsRegister (exec (.loadImm x nn) s) s x nn.toNat

/-- R142: the sum is truncated and VF is not a flag here. -/
def Obligations.AddImmediateWrapsWithoutFlag : Prop :=
  ∀ (x : Reg) (nn : Byte) (s : State), decode (wordXNN 0x7000 x nn) = .instr (.addImm x nn) ∧
    SetsRegister (exec (.addImm x nn) s) s x (((s.reg x).toNat + nn.toNat) % 256)

/-- R143 to R146: copy, or, and, xor write V[X] and no flag. Opcode values: U1. -/
def Obligations.CopyAndLogicalInstructionsWriteNoFlag : Prop :=
  ∀ (x y : Reg) (s : State),
    (decode (wordXY 0x8000 x y) = .instr (.copy x y) ∧
      SetsRegister (exec (.copy x y) s) s x (s.reg y).toNat) ∧
    (decode (wordXY 0x8001 x y) = .instr (.or x y) ∧
      SetsRegister (exec (.or x y) s) s x ((s.reg x).toNat ||| (s.reg y).toNat)) ∧
    (decode (wordXY 0x8002 x y) = .instr (.and x y) ∧
      SetsRegister (exec (.and x y) s) s x ((s.reg x).toNat &&& (s.reg y).toNat)) ∧
    (decode (wordXY 0x8003 x y) = .instr (.xor x y) ∧
      SetsRegister (exec (.xor x y) s) s x ((s.reg x).toNat ^^^ (s.reg y).toNat))

/-- R148: VF = 1 when there is no carry; with X = 15 the result overwrites the flag. -/
def Obligations.AddSetsFlagWhenThereIsNoCarry : Prop :=
  ∀ (x y : Reg) (s : State), decode (wordXY 0x8004 x y) = .instr (.add x y) ∧
    SetsFlagAndRegister (exec (.add x y) s) s x
      (if (s.reg x).toNat + (s.reg y).toNat ≤ 255 then 1 else 0)
      (((s.reg x).toNat + (s.reg y).toNat) % 256)

/-- R149, R151, R154: the differences modulo 256 and the no-borrow flag. Operand order with X or Y = 15: D7;
opcode values: U1. -/
def Obligations.SubtractionsSetFlagWhenThereIsNoBorrow : Prop :=
  ∀ (x y : Reg) (s : State),
    (decode (wordXY 0x8005 x y) = .instr (.sub x y) ∧
      SetsFlagAndRegister (exec (.sub x y) s) s x
        (if (s.reg x).toNat ≥ (s.reg y).toNat then 1 else 0)
        (((s.reg x).toNat + 256 - (s.reg y).toNat) % 256)) ∧
    (decode (wordXY 0x8007 x y) = .instr (.subn x y) ∧
      SetsFlagAndRegister (exec (.subn x y) s) s x
        (if (s.reg y).toNat ≥ (s.reg x).toNat then 1 else 0)
        (((s.reg y).toNat + 256 - (s.reg x).toNat) % 256))

/-- R88, R150, R152: shifts of V[X] by one, the bit shifted out to VF, the Y field ignored. D7, U1. -/
def Obligations.ShiftsUseOnlyTheirFirstRegister : Prop :=
  ∀ (x y : Reg) (s : State),
    (decode (wordXY 0x8006 x y) = .instr (.shr x y) ∧
      SetsFlagAndRegister (exec (.shr x y) s) s x ((s.reg x).toNat % 2) ((s.reg x).toNat / 2)) ∧
    (decode (wordXY 0x800E x y) = .instr (.shl x y) ∧
      SetsFlagAndRegister (exec (.shl x y) s) s x ((s.reg x).toNat / 128) ((s.reg x).toNat * 2 % 256))

/-- R153 (D15, U1): the result is the drawn byte, which is free (log entry 2), masked with NN; it holds for
every value of the free byte, and the next draw is another one. -/
def Obligations.RandIsADrawnByteUnderTheMask : Prop :=
  ∀ (x : Reg) (nn : Byte) (s : State), decode (wordXNN 0xC000 x nn) = .instr (.rand x nn) ∧
    Completes (exec (.rand x nn) s) s [.V, .draws] fun t =>
      t.reg x = (Config.freeRandom s.draws &&& nn) ∧ t.reg x &&& ~~~nn = 0 ∧ t.draws = s.draws + 1 ∧
      ∀ r, r ≠ x → t.reg r = s.reg r

/-- R23: VF as a side effect is written by add, sub, shr, subn, shl and draw, with these values; every other
instruction leaves it unless register 15 is its destination (for reg-load, in its range). That operands are read
before any write, and that the result alone stands in VF when X = 15, is D7 (R147, log entry 10). -/
def Obligations.FlagRegisterIsWrittenByTheSixInstructionsOnly : Prop :=
  ∀ (i : Instr) (s t : State), s.fault = none → exec i s = .next t → t.fault = none →
    match i with
    | .add x y => (t.reg 15).toNat = if x = 15 then ((s.reg x).toNat + (s.reg y).toNat) % 256
        else if (s.reg x).toNat + (s.reg y).toNat ≤ 255 then 1 else 0
    | .sub x y => (t.reg 15).toNat = if x = 15 then ((s.reg x).toNat + 256 - (s.reg y).toNat) % 256
        else if (s.reg x).toNat ≥ (s.reg y).toNat then 1 else 0
    | .shr x _ => (t.reg 15).toNat = if x = 15 then (s.reg x).toNat / 2 else (s.reg x).toNat % 2
    | .subn x y => (t.reg 15).toNat = if x = 15 then ((s.reg y).toNat + 256 - (s.reg x).toNat) % 256
        else if (s.reg y).toNat ≥ (s.reg x).toNat then 1 else 0
    | .shl x _ => (t.reg 15).toNat = if x = 15 then (s.reg x).toNat * 2 % 256 else (s.reg x).toNat / 128
    | .draw _ _ _ => (TurnsOffAPixel s t → t.reg 15 = 1) ∧ (¬TurnsOffAPixel s t → t.reg 15 = 0)
    | .loadImm x _ | .addImm x _ | .copy x _ | .or x _ | .and x _ | .xor x _ | .rand x _ | .getDelay x
    | .waitKey x | .regLoad x => x ≠ 15 → t.reg 15 = s.reg 15
    | _ => t.reg 15 = s.reg 15

/-- The document's property Q1 (95_test_vectors.md; R141, R142). -/
def Obligations.LoadThenAddImmediateDoubles : Prop :=
  ∀ (x : Reg) (nn : Byte) (s : State), ∃ t u, exec (.loadImm x nn) s = .next t ∧
    exec (.addImm x nn) t = .next u ∧ (u.reg x).toNat = 2 * nn.toNat % 256

/-! ## Control flow -/

/-- R122, R128: the jumps. The offset register is V0 and the sum is not reduced modulo 4096 (D9). U1. -/
def Obligations.JumpsSetTheProgramCounter : Prop :=
  ∀ (nnn : BitVec 12) (s : State),
    (decode (wordNNN 0x1000 nnn) = .instr (.jump nnn) ∧
      SetsPc (exec (.jump nnn) s) s (BitVec.ofNat 16 nnn.toNat)) ∧
    (decode (wordNNN 0xB000 nnn) = .instr (.jumpOffset nnn) ∧
      SetsPc (exec (.jumpOffset nnn) s) s (BitVec.ofNat 16 (nnn.toNat + (s.reg 0).toNat)))

/-- R123: a call pushes the address of the next instruction and jumps; with 16 frames in use (D3) it raises
StackOverflow and changes nothing else (R212, R217). -/
def Obligations.CallPushesTheReturnAddress : Prop :=
  ∀ (nnn : BitVec 12) (s : State), decode (wordNNN 0x2000 nnn) = .instr (.call nnn) ∧
    (s.sp.val < 16 → ∃ t, exec (.call nnn) s = .next t ∧ t.pc = BitVec.ofNat 16 nnn.toNat ∧
      t.sp.val = s.sp.val + 1 ∧ OnlyChanges [.pc, .stack] s t ∧
      ∀ k : Fin 16, t.stack[k] = if k.val = s.sp.val then s.pc + 2 else s.stack[k]) ∧
    (s.sp.val = 16 → Raises (exec (.call nnn) s) s .stackOverflow)

/-- R121: a return pops the top entry into PC; with an empty stack it raises StackUnderflow and changes nothing
else (R213, R217). -/
def Obligations.ReturnPopsTheTopEntry : Prop :=
  ∀ s : State, decode 0x00EE = .instr .ret ∧
    (∀ k : Fin 16, s.sp.val = k.val + 1 → ∃ t, exec .ret s = .next t ∧ t.pc = s.stack[k] ∧
      t.sp.val = k.val ∧ OnlyChanges [.pc, .stack] s t ∧ ∀ j : Fin 16, j < k → t.stack[j] = s.stack[j]) ∧
    (s.sp.val = 0 → Raises (exec .ret s) s .stackUnderflow)

/-- The document's property Q5 (95_test_vectors.md; R121, R123): "call NNN then return restores PC to the
address immediately following the call instruction", and the frames in use are those of before. -/
def Obligations.ReturnUndoesCall : Prop :=
  ∀ (nnn : BitVec 12) (s : State), s.sp.val < 16 → ∃ t u, exec (.call nnn) s = .next t ∧
    exec .ret t = .next u ∧ u.pc = s.pc + 2 ∧ u.sp = s.sp ∧ OnlyChanges [.pc, .stack] s u ∧
    ∀ k : Fin 16, k.val < s.sp.val → u.stack[k] = s.stack[k]

/-- R124, R125: the immediate skips. U1. -/
def Obligations.ImmediateSkipsCompareWithTheImmediate : Prop :=
  ∀ (x : Reg) (nn : Byte) (s : State),
    (decode (wordXNN 0x3000 x nn) = .instr (.skipEqImm x nn) ∧
      SetsPc (exec (.skipEqImm x nn) s) s (if s.reg x = nn then s.pc + 4 else s.pc + 2)) ∧
    (decode (wordXNN 0x4000 x nn) = .instr (.skipNeImm x nn) ∧
      SetsPc (exec (.skipNeImm x nn) s) s (if s.reg x = nn then s.pc + 2 else s.pc + 4))

/-- R126, R127: the register skips. U1. -/
def Obligations.RegisterSkipsCompareTwoRegisters : Prop :=
  ∀ (x y : Reg) (s : State),
    (decode (wordXY 0x5000 x y) = .instr (.skipEqReg x y) ∧
      SetsPc (exec (.skipEqReg x y) s) s (if s.reg x = s.reg y then s.pc + 4 else s.pc + 2)) ∧
    (decode (wordXY 0x9000 x y) = .instr (.skipNeReg x y) ∧
      SetsPc (exec (.skipNeReg x y) s) s (if s.reg x = s.reg y then s.pc + 2 else s.pc + 4))

/-! ## Keypad and timers -/

/-- R191, R192, R197: the key skips test the level of the key that the low nibble names (D13). U1. -/
def Obligations.KeySkipsTestTheLevelOfOneKey : Prop :=
  ∀ (x : Reg) (s : State),
    (decode (wordX 0xE09E x) = .instr (.skipKeyPressed x) ∧
      SetsPc (exec (.skipKeyPressed x) s) s
        (if s.keys.getLsbD ((s.reg x).toNat % 16) then s.pc + 4 else s.pc + 2)) ∧
    (decode (wordX 0xE0A1 x) = .instr (.skipKeyNotPressed x) ∧
      SetsPc (exec (.skipKeyNotPressed x) s) s
        (if s.keys.getLsbD ((s.reg x).toNat % 16) then s.pc + 2 else s.pc + 4))

/-- R194 (D14, U1): wait-key stays on itself with nothing changed while no key is newly pressed, and else
writes the least newly pressed key. -/
def Obligations.WaitKeyTakesTheLeastNewlyPressedKey : Prop :=
  ∀ (x : Reg) (s : State), decode (wordX 0xF00A x) = .instr (.waitKey x) ∧
    ((∀ k, k < 16 → ¬newlyPressed s k) → exec (.waitKey x) s = .next s) ∧
    (∀ k, k < 16 → newlyPressed s k → (∀ j, j < k → ¬newlyPressed s j) →
      SetsRegister (exec (.waitKey x) s) s x k)

/-- R193, R195, R196: the timer instructions. U1. -/
def Obligations.TimerInstructionsMoveOneTimer : Prop :=
  ∀ (x : Reg) (s : State),
    (decode (wordX 0xF007 x) = .instr (.getDelay x) ∧ SetsRegister (exec (.getDelay x) s) s x s.dt.toNat) ∧
    (decode (wordX 0xF015 x) = .instr (.setDelay x) ∧
      Completes (exec (.setDelay x) s) s [.dt] fun t => t.dt = s.reg x) ∧
    (decode (wordX 0xF018 x) = .instr (.setSound x) ∧
      Completes (exec (.setSound x) s) s [.st] fun t => t.st = s.reg x ∧ t.sound = s.reg x)

/-- R198 (D20, D30): a Tick takes one from each timer that is not 0, in both run states, and touches nothing
else. The Tick is the head of the Driver's list (log entry 4). -/
def Obligations.TickDecrementsBothTimers : Prop :=
  ∀ (s : State) (rest : List Invocation), s.driver = .tick :: rest → ∃ t, step s = .next t ∧
    t.driver = rest ∧ t.dt.toNat = s.dt.toNat - 1 ∧ t.st.toNat = s.st.toNat - 1 ∧
    OnlyChanges [.dt, .st, .driver] s t

/-- R28, R110: an instruction changes DT only as set-delay and ST only as set-sound, and "no instruction reads"
ST: with another value of ST it does the same to everything else. -/
def Obligations.NoInstructionReadsTheSoundTimer : Prop :=
  ∀ (i : Instr) (s t : State), exec i s = .next t →
    (t.dt ≠ s.dt → ∃ x, i = .setDelay x ∧ t.dt = s.reg x) ∧
    (t.st ≠ s.st → ∃ x, i = .setSound x ∧ t.st = s.reg x) ∧
    ∀ v, ∃ w, exec i { s with st := v } = .next { t with st := w }

/-! ## Index register and memory -/

/-- R160, R161, R162: I after load-I, add-I (modulo 4096, no flag) and font-addr (low nibble: D12; font
place: D10, for every FONT_BASE). U1. -/
def Obligations.IndexInstructionsWriteTheIndexRegister : Prop :=
  (∀ (nnn : BitVec 12) (s : State), decode (wordNNN 0xA000 nnn) = .instr (.loadI nnn) ∧
    Completes (exec (.loadI nnn) s) s [.I] fun t => t.I.toNat = nnn.toNat) ∧
  ∀ (x : Reg) (s : State),
    (decode (wordX 0xF01E x) = .instr (.addI x) ∧
      Completes (exec (.addI x) s) s [.I] fun t => t.I.toNat = (s.I.toNat + (s.reg x).toNat) % 4096) ∧
    (decode (wordX 0xF029 x) = .instr (.fontAddr x) ∧
      Completes (exec (.fontAddr x) s) s [.I] fun t =>
        t.I.toNat = s.config.fontBase.val + 5 * ((s.reg x).toNat % 16))

/-- R164, R65 (D16, U1): the three decimal digits go to I, I+1, I+2, hundreds first, and no other byte
changes; out of range nothing is written. -/
def Obligations.StoreBcdWritesThreeDigits : Prop :=
  ∀ (x : Reg) (s : State), decode (wordX 0xF033 x) = .instr (.storeBCD x) ∧
    (s.I.toNat + 2 ≤ 4095 → Completes (exec (.storeBCD x) s) s [.mem] fun t =>
      (t.byteAt s.I.toNat).toNat = (s.reg x).toNat / 100 ∧
      (t.byteAt (s.I.toNat + 1)).toNat = (s.reg x).toNat / 10 % 10 ∧
      (t.byteAt (s.I.toNat + 2)).toNat = (s.reg x).toNat % 10 ∧
      ∀ a, ¬(s.I.toNat ≤ a ∧ a < s.I.toNat + 3) → t.byteAt a = s.byteAt a) ∧
    (4095 < s.I.toNat + 2 → Raises (exec (.storeBCD x) s) s .addressFault)

/-- R165, R65 (D16, U1): V0 to V[X] go to I upward, and no other byte changes; out of range nothing is
written. -/
def Obligations.RegDumpStoresTheRegisterRange : Prop :=
  ∀ (x : Reg) (s : State), decode (wordX 0xF055 x) = .instr (.regDump x) ∧
    (s.I.toNat + x.val ≤ 4095 → Completes (exec (.regDump x) s) s [.mem] fun t =>
      (∀ r : Reg, r ≤ x → t.byteAt (s.I.toNat + r.val) = s.reg r) ∧
      ∀ a, ¬(s.I.toNat ≤ a ∧ a < s.I.toNat + (x.val + 1)) → t.byteAt a = s.byteAt a) ∧
    (4095 < s.I.toNat + x.val → Raises (exec (.regDump x) s) s .addressFault)

/-- R166, R65 (D16, U1): V0 to V[X] come from I upward, the registers above X stay; out of range nothing is
written. -/
def Obligations.RegLoadReadsTheRegisterRange : Prop :=
  ∀ (x : Reg) (s : State), decode (wordX 0xF065 x) = .instr (.regLoad x) ∧
    (s.I.toNat + x.val ≤ 4095 → Completes (exec (.regLoad x) s) s [.V] fun t =>
      (∀ r : Reg, r ≤ x → t.reg r = s.byteAt (s.I.toNat + r.val)) ∧
      ∀ r : Reg, x < r → t.reg r = s.reg r) ∧
    (4095 < s.I.toNat + x.val → Raises (exec (.regLoad x) s) s .addressFault)

/-- R163, R165, R166: a dump followed by a load of the same range, whatever registers were changed in between,
brings the registers back. -/
def Obligations.RegLoadRestoresWhatRegDumpSaved : Prop :=
  ∀ (x : Reg) (s t : State) (V : Vector Byte 16), s.I.toNat + x.val ≤ 4095 → exec (.regDump x) s = .next t →
    ∃ u, exec (.regLoad x) { t with V := V } = .next u ∧ ∀ r : Reg, r ≤ x → u.reg r = s.reg r

/-- R52, R53: a one-byte read answers the byte and a one-byte write changes exactly that cell; beyond 4095
both raise AddressFault. -/
def Obligations.MemoryAccessesAreCheckedAndExact : Prop :=
  ∀ (s : State) (a : Nat) (v : Byte),
    (a ≤ 4095 → s.readBlock a 1 = .ok [s.byteAt a] ∧ ∃ t, s.writeBlock a [v] = .ok t ∧ t.byteAt a = v ∧
      (∀ b, b ≠ a → t.byteAt b = s.byteAt b) ∧ OnlyChanges [.mem] s t) ∧
    (4095 < a → s.readBlock a 1 = .error .addressFault ∧ s.writeBlock a [v] = .error .addressFault)

/-- R50, R53: a write keeps the canonical form, in which two memories that read alike are the same data (the
form is the model's, log entry 6). -/
def Obligations.CanonicalMemoriesThatReadAlikeAreEqual : Prop :=
  ∀ (c : Config) (m n : Memory), m.wf c → n.wf c → (∀ a, m.read c a = n.read c a) → m = n

/-! ## Display -/

/-- R180 (U1): every pixel is 0 afterwards, and VF is not written. -/
def Obligations.ClearScreenTurnsOffEveryPixel : Prop :=
  ∀ s : State, decode 0x00E0 = .instr .clearScreen ∧
    Completes (exec .clearScreen s) s [.fb] fun t => ∀ px py, pixel t.fb px py = false

/-- R181, R182 (d), R183 (operands sampled first: D7; N = 0: D17; U1): each pixel is XORed with the sprite bit
that maps to it, with wrap in both axes; VF is 1 exactly when a lit pixel is covered; out of range (which
N = 0 never is) nothing is written. -/
def Obligations.DrawXorsTheSpriteIntoTheScreen : Prop :=
  ∀ (x y : Reg) (n : BitVec 4) (s : State), decode (wordXYN 0xD000 x y n) = .instr (.draw x y n) ∧
    (n = 0 ∨ s.I.toNat + n.toNat - 1 ≤ 4095 → Completes (exec (.draw x y n) s) s [.V, .fb] fun t =>
      let covered := SpriteCovers s (s.reg x).toNat (s.reg y).toNat n.toNat
      (∀ px py, (covered px py → pixel t.fb px py = !pixel s.fb px py) ∧
        (¬covered px py → pixel t.fb px py = pixel s.fb px py)) ∧
      ((∃ px py, covered px py ∧ pixel s.fb px py = true) → t.reg 15 = 1) ∧
      ((∀ px py, covered px py → pixel s.fb px py = false) → t.reg 15 = 0) ∧
      ∀ r, r ≠ 15 → t.reg r = s.reg r) ∧
    (n ≠ 0 ∧ 4095 < s.I.toNat + n.toNat - 1 → Raises (exec (.draw x y n) s) s .addressFault)

/-- R182 (b), (c): the same sprite drawn twice at the same coordinates restores the framebuffer, and VF tells
the second draw's collisions only; where the first draw met no lit pixel and the sprite covers some pixel,
the second collides. -/
def Obligations.DrawingTwiceRestoresTheScreen : Prop :=
  ∀ (x y : Reg) (n : BitVec 4) (s t : State), n = 0 ∨ s.I.toNat + n.toNat - 1 ≤ 4095 →
    exec (.draw x y n) s = .next t → t.reg x = s.reg x → t.reg y = s.reg y →
    ∃ u, exec (.draw x y n) t = .next u ∧ u.fb = s.fb ∧
      (u.reg 15 = 1 ↔ TurnsOffAPixel t u) ∧
      (t.reg 15 = 0 → (∃ px py, SpriteCovers s (s.reg x).toNat (s.reg y).toNat n.toNat px py) → u.reg 15 = 1)

/-! ## Reset, Load and the other invocations -/

/-- R39, R240 (D29; font: D10, D11; fault and key_prev: D4, D14): every element after Reset; each memory byte is 0
but for byte `j` of glyph `d` at FONT_BASE + 5*d + j (R61), for every admissible font. -/
def Obligations.ResetValues : Prop :=
  ∀ c : Config, let s := State.resetWith c
    (∀ r, s.reg r = 0) ∧ s.I = 0 ∧ s.pc = 0x200 ∧ s.sp = 0 ∧ (∀ k : Fin 16, s.stack[k] = 0) ∧
    (∀ px py, pixel s.fb px py = false) ∧ s.dt = 0 ∧ s.st = 0 ∧ s.fault = none ∧ s.keyPrev = 0 ∧
    (∀ (d : Fin 16) (j : Fin 5), s.byteAt (c.fontBase.val + 5 * d.val + j.val) = c.font[d][j]) ∧
    (∀ a, ¬(c.fontBase.val ≤ a ∧ a < c.fontBase.val + 80) → s.byteAt a = 0)

/-- R240, R219 (D29): a Reset invoked from any state, HALTED or not, gives the reset state; the keypad flags, the
draws and the Driver's list are no state of the core and stay (log entry 14). -/
def Obligations.ResetInvocationRestoresTheResetState : Prop :=
  ∀ (s : State) (rest : List Invocation), s.driver = .reset :: rest →
    step s = .next { State.resetWith s.config with keys := s.keys, draws := s.draws, driver := rest }

/-- R64, R215 (D19): a Load before the first Step writes the image from 0x200 and no other byte; an image of
more than 3584 bytes is LoadFault with memory unchanged; after the first Step a Load is refused (log entry 7). -/
def Obligations.LoadPlacesTheImage : Prop :=
  ∀ (s : State) (image : List Byte) (rest : List Invocation), s.driver = .load image :: rest →
    (s.stepped = false → image.length ≤ 3584 → ∃ t, step s = .next t ∧ OnlyChanges [.mem, .driver] s t ∧
      t.driver = rest ∧ (∀ k (h : k < image.length), t.byteAt (0x200 + k) = image[k]) ∧
      ∀ a, ¬(0x200 ≤ a ∧ a < 0x200 + image.length) → t.byteAt a = s.byteAt a) ∧
    (s.stepped = false → 3584 < image.length →
      step s = .next { s with driver := rest, fault := some .loadFault }) ∧
    (s.stepped = true → step s = .refused .loadAfterFirstStep)

/-- R36 (D21): the Input Source changes the keypad flags between invocations, to any levels, and touches nothing
else. -/
def Obligations.InputSourceChangesOnlyTheKeypadFlags : Prop :=
  ∀ (s : State) (levels : Word) (rest : List Invocation), s.driver = .setKeys levels :: rest →
    step s = .next { s with keys := levels, driver := rest }

/-- R64, R210: the one thing a step refuses is a Load after the first Step, and no step answers `fault`: the
faults of the closed taxonomy are next states (log entries 1 and 7; the model's own choice). -/
def Obligations.OnlyALateLoadIsRefused : Prop :=
  ∀ s : State, (∃ t, step s = .next t) ∨
    (step s = .refused .loadAfterFirstStep ∧ s.stepped = true ∧ ∃ image, s.driver.head? = some (.load image))

/-- R111 (D28): "`jump a` at address `a`" is an idle loop, "which leaves every element unchanged from Step to
Step": any number of Steps ends in the first one's state, without a fault. -/
def Obligations.JumpToSelfIsAnIdleLoop : Prop :=
  ∀ (s : State) (nnn : BitVec 12) (n : Nat), s.driver = [] → s.fault = none → s.pc.toNat ≤ 4094 →
    s.pc = BitVec.ofNat 16 nnn.toNat →
    s.byteAt s.pc.toNat ++ s.byteAt (s.pc.toNat + 1) = wordNNN 0x1000 nnn →
    Host.Core.run core (n + 1) s = .next { s with stepped := true, keyPrev := s.keys } ∧ RunsWithoutFault n s
end

