-- ==== Sys2Proof/Laws/Encoding.lean ====
section
/-! SUPPORT. The fields of a laid-out word (spec/30_encoding.md R76, R77): each field reads back what the format
put there. -/

namespace Sys2Proof

@[simp] theorem regField_toFin (r : Reg) : (regField r).toFin = r := rfl

/-- The bits a lower part does not reach. -/
theorem extractLsb'_append_high {m n : Nat} (a : BitVec m) (b : BitVec n) :
    (a ++ b).extractLsb' n m = a := by
  ext i hi
  simp [BitVec.getElem_extractLsb', BitVec.getLsbD_append, BitVec.getLsbD_eq_getElem hi]

/-- The bits of the lower part. -/
theorem extractLsb'_append_low {m n s l : Nat} (a : BitVec m) (b : BitVec n) (h : s + l ≤ n) :
    (a ++ b).extractLsb' s l = b.extractLsb' s l := by
  ext i hi
  have : s + i < n := by omega
  simp [BitVec.getLsbD_append, this]

@[simp] theorem extractLsb'_whole {n : Nat} (b : BitVec n) : b.extractLsb' 0 n = b := by
  ext i hi; simp

@[simp] theorem opField_layNNN (op : BitVec 4) (nnn : BitVec 12) : opField (layNNN op nnn) = op :=
  extractLsb'_append_high op nnn

@[simp] theorem nnnField_layNNN (op : BitVec 4) (nnn : BitVec 12) : nnnField (layNNN op nnn) = nnn :=
  (extractLsb'_append_low op nnn (by omega)).trans (extractLsb'_whole nnn)

@[simp] theorem opField_layXNN (op : BitVec 4) (x : Reg) (nn : Byte) : opField (layXNN op x nn) = op :=
  extractLsb'_append_high op _

@[simp] theorem xField_layXNN (op : BitVec 4) (x : Reg) (nn : Byte) : xField (layXNN op x nn) = x := by
  rw [xField, layXNN, extractLsb'_append_low _ _ (by omega), extractLsb'_append_high, regField_toFin]

@[simp] theorem nnField_layXNN (op : BitVec 4) (x : Reg) (nn : Byte) : nnField (layXNN op x nn) = nn := by
  rw [nnField, layXNN, extractLsb'_append_low _ _ (by omega), extractLsb'_append_low _ _ (by omega),
    extractLsb'_whole]

@[simp] theorem opField_layXYN (op : BitVec 4) (x y : Reg) (n : BitVec 4) : opField (layXYN op x y n) = op :=
  extractLsb'_append_high op _

@[simp] theorem xField_layXYN (op : BitVec 4) (x y : Reg) (n : BitVec 4) : xField (layXYN op x y n) = x := by
  rw [xField, layXYN, extractLsb'_append_low _ _ (by omega), extractLsb'_append_high, regField_toFin]

@[simp] theorem yField_layXYN (op : BitVec 4) (x y : Reg) (n : BitVec 4) : yField (layXYN op x y n) = y := by
  rw [yField, layXYN, extractLsb'_append_low _ _ (by omega), extractLsb'_append_low _ _ (by omega),
    extractLsb'_append_high, regField_toFin]

@[simp] theorem nField_layXYN (op : BitVec 4) (x y : Reg) (n : BitVec 4) : nField (layXYN op x y n) = n := by
  rw [nField, layXYN, extractLsb'_append_low _ _ (by omega), extractLsb'_append_low _ _ (by omega),
    extractLsb'_append_low _ _ (by omega), extractLsb'_whole]

/-- A word is its two bytes, the high one first (R55). -/
theorem opcodeOf_bytes (w : Word) : opcodeOf (highByte w) (lowByte w) = w := by
  refine BitVec.eq_of_getLsbD_eq fun i hi => ?_
  have h : (highByte w ++ lowByte w : BitVec (8 + 8)).getLsbD i = w.getLsbD i := by
    rw [BitVec.getLsbD_append]
    split
    · rename_i h; simp [lowByte, h]
    · rename_i h
      have e : 8 + (i - 8) = i := by omega
      have l : i - 8 < 8 := by omega
      simp [highByte, e, l]
  exact h

end Sys2Proof
end

