-- ==== Sys2Proof/Laws/Memory.lean ====
section
/-! SUPPORT. Memory: a read after a write to the same address gives the value written, a write leaves every
other address alone, and each operation keeps the canonical form. -/

namespace Sys2Proof.Machine

theorem Memory.read_insertCell_same (c : Config) (a : Nat) (v : Byte) (m : Memory)
    (h : ∀ p ∈ m, p.1 ≠ a) : (Memory.insertCell a v m).read c a = v := by
  induction m with
  | nil => simp [Memory.insertCell, Memory.read]
  | cons p rest ih =>
    obtain ⟨b, w⟩ := p
    have hb : b ≠ a := h (b, w) (by simp)
    have hr := ih fun p hp => h p (by simp [hp])
    unfold Memory.insertCell
    split <;> simp [Memory.read, hb, hr]

theorem Memory.read_insertCell_ne (c : Config) {a b : Nat} (v : Byte) (m : Memory) (h : b ≠ a) :
    (Memory.insertCell a v m).read c b = m.read c b := by
  induction m with
  | nil => simp [Memory.insertCell, Memory.read, h.symm]
  | cons p rest ih =>
    obtain ⟨d, w⟩ := p
    unfold Memory.insertCell
    split <;> simp [Memory.read, h.symm, ih]

theorem Memory.read_filter_same (c : Config) (a : Nat) (m : Memory) :
    Memory.read c (m.filter (·.1 != a)) a = Memory.background c a := by
  induction m with
  | nil => rfl
  | cons p rest ih =>
    by_cases h : p.1 = a
    · simpa [h] using ih
    · simpa [h, Memory.read] using ih

theorem Memory.read_filter_ne (c : Config) {a b : Nat} (m : Memory) (h : b ≠ a) :
    Memory.read c (m.filter (·.1 != a)) b = m.read c b := by
  induction m with
  | nil => rfl
  | cons p rest ih =>
    by_cases hp : p.1 = a
    · have : p.1 ≠ b := fun e => h (e.symm.trans hp)
      simp [hp, Memory.read, h.symm, ih]
    · simp [hp, Memory.read, ih]

/-- R53: a write stores its byte. -/
@[simp] theorem Memory.read_write_same (c : Config) (a : Nat) (v : Byte) (m : Memory) :
    (m.write c a v).read c a = v := by
  simp only [Memory.write]
  split
  · rw [Memory.read_filter_same]; exact (‹v = _›).symm
  · exact Memory.read_insertCell_same c a v _ fun p hp => by simpa using (List.mem_filter.mp hp).2

/-- R53: a write "changes exactly that one cell and nothing else". -/
theorem Memory.read_write_ne (c : Config) {a b : Nat} (v : Byte) (m : Memory) (h : b ≠ a) :
    (m.write c a v).read c b = m.read c b := by
  simp only [Memory.write]
  split
  · exact Memory.read_filter_ne c m h
  · rw [Memory.read_insertCell_ne c v _ h, Memory.read_filter_ne c m h]

/-- The bytes of a stored block, and only these, change. -/
theorem Memory.read_writeAll (c : Config) (vs : List Byte) (a : Nat) (m : Memory) (b : Nat) :
    (m.writeAll c a vs).read c b =
      if h : a ≤ b ∧ b < a + vs.length then vs[b - a]'(by omega) else m.read c b := by
  induction vs generalizing a m with
  | nil => simp [Memory.writeAll]
  | cons v vs ih =>
    rw [Memory.writeAll, ih]
    by_cases hab : b = a
    · subst hab; simp
    · by_cases h : a + 1 ≤ b ∧ b < a + 1 + vs.length
      · have h' : a ≤ b ∧ b < a + (v :: vs).length := by simp only [List.length_cons]; omega
        rw [dif_pos h, dif_pos h']
        have : b - a = b - (a + 1) + 1 := by omega
        simp [this]
      · have h' : ¬(a ≤ b ∧ b < a + (v :: vs).length) := by simp only [List.length_cons]; omega
        rw [dif_neg h, dif_neg h', Memory.read_write_ne c v m hab]

@[simp] theorem Memory.length_readAll (c : Config) (m : Memory) (a n : Nat) :
    (m.readAll c a n).length = n := by
  induction n generalizing a with
  | zero => rfl
  | succ n ih => simp [Memory.readAll, ih]

@[simp] theorem Memory.getElem_readAll (c : Config) (m : Memory) (a n k : Nat)
    (h : k < (m.readAll c a n).length) : (m.readAll c a n)[k] = m.read c (a + k) := by
  induction n generalizing a k with
  | zero => simp [Memory.readAll] at h
  | succ n ih =>
    cases k with
    | zero => rfl
    | succ k => simp [Memory.readAll, ih, Nat.add_assoc, Nat.add_comm 1 k]

/-! ## The canonical form -/

theorem Memory.mem_insertCell {a : Nat} {v : Byte} {m : Memory} {p : Host.Cell}
    (h : p ∈ Memory.insertCell a v m) : p = (a, v) ∨ p ∈ m := by
  induction m with
  | nil => simpa [Memory.insertCell] using h
  | cons q rest ih =>
    obtain ⟨b, w⟩ := q
    unfold Memory.insertCell at h
    split at h
    · simpa using h
    · rcases List.mem_cons.mp h with h | h
      · simp [h]
      · rcases ih h with h | h <;> simp [h]

theorem Memory.sorted_insertCell {a : Nat} (v : Byte) {m : Memory}
    (hs : m.Pairwise fun p q => p.1 < q.1) (hne : ∀ p ∈ m, p.1 ≠ a) :
    (Memory.insertCell a v m).Pairwise fun p q => p.1 < q.1 := by
  induction m with
  | nil => simp [Memory.insertCell]
  | cons q rest ih =>
    obtain ⟨b, w⟩ := q
    obtain ⟨hq, hr⟩ := List.pairwise_cons.mp hs
    have hb : b ≠ a := hne (b, w) (by simp)
    unfold Memory.insertCell
    split
    · rename_i hab
      refine List.pairwise_cons.mpr ⟨fun p hp => ?_, hs⟩
      rcases List.mem_cons.mp hp with h | h
      · simpa [h] using hab
      · exact Nat.lt_trans hab (hq p h)
    · rename_i hab
      refine List.pairwise_cons.mpr ⟨fun p hp => ?_, ih hr fun p hp => hne p (by simp [hp])⟩
      rcases Memory.mem_insertCell hp with h | h
      · subst h; simp only; omega
      · exact hq p h

/-- A write inside the address space keeps the canonical form. -/
theorem Memory.write_wf {c : Config} {m : Memory} {a : Nat} (v : Byte) (h : m.wf c) (ha : a < memSize) :
    (m.write c a v).wf c := by
  have hs : (m.filter (·.1 != a)).Pairwise fun p q => p.1 < q.1 := h.1.filter _
  have hm : ∀ p ∈ m.filter (·.1 != a), p.1 < memSize ∧ p.2 ≠ Memory.background c p.1 :=
    fun p hp => h.2 p (List.mem_filter.mp hp).1
  simp only [Memory.write]
  split
  · exact ⟨hs, hm⟩
  · rename_i hv
    refine ⟨Memory.sorted_insertCell v hs fun p hp => by simpa using (List.mem_filter.mp hp).2, ?_⟩
    intro p hp
    rcases Memory.mem_insertCell hp with h | h
    · subst h; exact ⟨ha, hv⟩
    · exact hm p h

/-- A block stored inside the address space keeps the canonical form. -/
theorem Memory.writeAll_wf {c : Config} (vs : List Byte) {m : Memory} {a : Nat} (h : m.wf c)
    (ha : a + vs.length ≤ memSize) : (m.writeAll c a vs).wf c := by
  induction vs generalizing a m with
  | nil => exact h
  | cons v vs ih =>
    simp only [List.length_cons] at ha
    exact ih (Memory.write_wf v h (by omega)) (by omega)

/-- Nothing listed is canonical: the memory of the reset state. -/
theorem Memory.nil_wf (c : Config) : Memory.wf c [] := ⟨List.Pairwise.nil, by simp⟩

theorem State.reset_mem_wf (c : Config) : (State.resetWith c).mem.wf (State.resetWith c).config :=
  Memory.nil_wf c

/-- The font is where R61 puts it. -/
theorem Memory.background_glyph (c : Config) (d : Fin 16) (j : Fin 5) :
    Memory.background c (c.fontBase.val + 5 * d.val + j.val) = c.font[d][j] := by
  have h : c.fontBase.val ≤ c.fontBase.val + 5 * d.val + j.val ∧
      c.fontBase.val + 5 * d.val + j.val < c.fontBase.val + 80 := by omega
  have hd : (c.fontBase.val + 5 * d.val + j.val - c.fontBase.val) / 5 = d.val := by omega
  have hj : (c.fontBase.val + 5 * d.val + j.val - c.fontBase.val) % 5 = j.val := by omega
  simp only [Memory.background, dif_pos h, hd, hj, Fin.getElem_fin]

end Sys2Proof.Machine
end

