-- ==== Sys2Proof/Laws/State.lean ====
section
/-! SUPPORT. One lemma per field per update of State, so that no proof unfolds a record update. -/

namespace Sys2Proof.Machine

variable (s : State)

/-! ### setReg -/

@[simp] theorem State.setReg_V (r : Reg) (v : Byte) : (s.setReg r v).V = s.V.set r v := rfl
@[simp] theorem State.setReg_I (r : Reg) (v : Byte) : (s.setReg r v).I = s.I := rfl
@[simp] theorem State.setReg_pc (r : Reg) (v : Byte) : (s.setReg r v).pc = s.pc := rfl
@[simp] theorem State.setReg_sp (r : Reg) (v : Byte) : (s.setReg r v).sp = s.sp := rfl
@[simp] theorem State.setReg_stack (r : Reg) (v : Byte) : (s.setReg r v).stack = s.stack := rfl
@[simp] theorem State.setReg_mem (r : Reg) (v : Byte) : (s.setReg r v).mem = s.mem := rfl
@[simp] theorem State.setReg_fb (r : Reg) (v : Byte) : (s.setReg r v).fb = s.fb := rfl
@[simp] theorem State.setReg_dt (r : Reg) (v : Byte) : (s.setReg r v).dt = s.dt := rfl
@[simp] theorem State.setReg_st (r : Reg) (v : Byte) : (s.setReg r v).st = s.st := rfl
@[simp] theorem State.setReg_fault (r : Reg) (v : Byte) : (s.setReg r v).fault = s.fault := rfl
@[simp] theorem State.setReg_keyPrev (r : Reg) (v : Byte) : (s.setReg r v).keyPrev = s.keyPrev := rfl
@[simp] theorem State.setReg_keys (r : Reg) (v : Byte) : (s.setReg r v).keys = s.keys := rfl
@[simp] theorem State.setReg_draws (r : Reg) (v : Byte) : (s.setReg r v).draws = s.draws := rfl
@[simp] theorem State.setReg_config (r : Reg) (v : Byte) : (s.setReg r v).config = s.config := rfl
@[simp] theorem State.setReg_driver (r : Reg) (v : Byte) : (s.setReg r v).driver = s.driver := rfl
@[simp] theorem State.setReg_stepped (r : Reg) (v : Byte) : (s.setReg r v).stepped = s.stepped := rfl
@[simp] theorem State.setReg_byteAt (r : Reg) (v : Byte) (i : Nat) : (s.setReg r v).byteAt i = s.byteAt i := rfl

/-! ### setV -/

@[simp] theorem State.setV_V (w : Vector Byte 16) : (s.setV w).V = w := rfl
@[simp] theorem State.setV_I (w : Vector Byte 16) : (s.setV w).I = s.I := rfl
@[simp] theorem State.setV_pc (w : Vector Byte 16) : (s.setV w).pc = s.pc := rfl
@[simp] theorem State.setV_sp (w : Vector Byte 16) : (s.setV w).sp = s.sp := rfl
@[simp] theorem State.setV_stack (w : Vector Byte 16) : (s.setV w).stack = s.stack := rfl
@[simp] theorem State.setV_mem (w : Vector Byte 16) : (s.setV w).mem = s.mem := rfl
@[simp] theorem State.setV_fb (w : Vector Byte 16) : (s.setV w).fb = s.fb := rfl
@[simp] theorem State.setV_dt (w : Vector Byte 16) : (s.setV w).dt = s.dt := rfl
@[simp] theorem State.setV_st (w : Vector Byte 16) : (s.setV w).st = s.st := rfl
@[simp] theorem State.setV_fault (w : Vector Byte 16) : (s.setV w).fault = s.fault := rfl
@[simp] theorem State.setV_keyPrev (w : Vector Byte 16) : (s.setV w).keyPrev = s.keyPrev := rfl
@[simp] theorem State.setV_keys (w : Vector Byte 16) : (s.setV w).keys = s.keys := rfl
@[simp] theorem State.setV_draws (w : Vector Byte 16) : (s.setV w).draws = s.draws := rfl
@[simp] theorem State.setV_config (w : Vector Byte 16) : (s.setV w).config = s.config := rfl
@[simp] theorem State.setV_driver (w : Vector Byte 16) : (s.setV w).driver = s.driver := rfl
@[simp] theorem State.setV_stepped (w : Vector Byte 16) : (s.setV w).stepped = s.stepped := rfl
@[simp] theorem State.setV_byteAt (w : Vector Byte 16) (i : Nat) : (s.setV w).byteAt i = s.byteAt i := rfl

/-! ### setI -/

@[simp] theorem State.setI_V (v : Word) : (s.setI v).V = s.V := rfl
@[simp] theorem State.setI_I (v : Word) : (s.setI v).I = v := rfl
@[simp] theorem State.setI_pc (v : Word) : (s.setI v).pc = s.pc := rfl
@[simp] theorem State.setI_sp (v : Word) : (s.setI v).sp = s.sp := rfl
@[simp] theorem State.setI_stack (v : Word) : (s.setI v).stack = s.stack := rfl
@[simp] theorem State.setI_mem (v : Word) : (s.setI v).mem = s.mem := rfl
@[simp] theorem State.setI_fb (v : Word) : (s.setI v).fb = s.fb := rfl
@[simp] theorem State.setI_dt (v : Word) : (s.setI v).dt = s.dt := rfl
@[simp] theorem State.setI_st (v : Word) : (s.setI v).st = s.st := rfl
@[simp] theorem State.setI_fault (v : Word) : (s.setI v).fault = s.fault := rfl
@[simp] theorem State.setI_keyPrev (v : Word) : (s.setI v).keyPrev = s.keyPrev := rfl
@[simp] theorem State.setI_keys (v : Word) : (s.setI v).keys = s.keys := rfl
@[simp] theorem State.setI_draws (v : Word) : (s.setI v).draws = s.draws := rfl
@[simp] theorem State.setI_config (v : Word) : (s.setI v).config = s.config := rfl
@[simp] theorem State.setI_driver (v : Word) : (s.setI v).driver = s.driver := rfl
@[simp] theorem State.setI_stepped (v : Word) : (s.setI v).stepped = s.stepped := rfl
@[simp] theorem State.setI_reg (v : Word) (i : Reg) : (s.setI v).reg i = s.reg i := rfl
@[simp] theorem State.setI_byteAt (v : Word) (i : Nat) : (s.setI v).byteAt i = s.byteAt i := rfl

/-! ### setPc -/

@[simp] theorem State.setPc_V (v : Word) : (s.setPc v).V = s.V := rfl
@[simp] theorem State.setPc_I (v : Word) : (s.setPc v).I = s.I := rfl
@[simp] theorem State.setPc_pc (v : Word) : (s.setPc v).pc = v := rfl
@[simp] theorem State.setPc_sp (v : Word) : (s.setPc v).sp = s.sp := rfl
@[simp] theorem State.setPc_stack (v : Word) : (s.setPc v).stack = s.stack := rfl
@[simp] theorem State.setPc_mem (v : Word) : (s.setPc v).mem = s.mem := rfl
@[simp] theorem State.setPc_fb (v : Word) : (s.setPc v).fb = s.fb := rfl
@[simp] theorem State.setPc_dt (v : Word) : (s.setPc v).dt = s.dt := rfl
@[simp] theorem State.setPc_st (v : Word) : (s.setPc v).st = s.st := rfl
@[simp] theorem State.setPc_fault (v : Word) : (s.setPc v).fault = s.fault := rfl
@[simp] theorem State.setPc_keyPrev (v : Word) : (s.setPc v).keyPrev = s.keyPrev := rfl
@[simp] theorem State.setPc_keys (v : Word) : (s.setPc v).keys = s.keys := rfl
@[simp] theorem State.setPc_draws (v : Word) : (s.setPc v).draws = s.draws := rfl
@[simp] theorem State.setPc_config (v : Word) : (s.setPc v).config = s.config := rfl
@[simp] theorem State.setPc_driver (v : Word) : (s.setPc v).driver = s.driver := rfl
@[simp] theorem State.setPc_stepped (v : Word) : (s.setPc v).stepped = s.stepped := rfl
@[simp] theorem State.setPc_reg (v : Word) (i : Reg) : (s.setPc v).reg i = s.reg i := rfl
@[simp] theorem State.setPc_byteAt (v : Word) (i : Nat) : (s.setPc v).byteAt i = s.byteAt i := rfl

/-! ### setDt -/

@[simp] theorem State.setDt_V (v : Byte) : (s.setDt v).V = s.V := rfl
@[simp] theorem State.setDt_I (v : Byte) : (s.setDt v).I = s.I := rfl
@[simp] theorem State.setDt_pc (v : Byte) : (s.setDt v).pc = s.pc := rfl
@[simp] theorem State.setDt_sp (v : Byte) : (s.setDt v).sp = s.sp := rfl
@[simp] theorem State.setDt_stack (v : Byte) : (s.setDt v).stack = s.stack := rfl
@[simp] theorem State.setDt_mem (v : Byte) : (s.setDt v).mem = s.mem := rfl
@[simp] theorem State.setDt_fb (v : Byte) : (s.setDt v).fb = s.fb := rfl
@[simp] theorem State.setDt_dt (v : Byte) : (s.setDt v).dt = v := rfl
@[simp] theorem State.setDt_st (v : Byte) : (s.setDt v).st = s.st := rfl
@[simp] theorem State.setDt_fault (v : Byte) : (s.setDt v).fault = s.fault := rfl
@[simp] theorem State.setDt_keyPrev (v : Byte) : (s.setDt v).keyPrev = s.keyPrev := rfl
@[simp] theorem State.setDt_keys (v : Byte) : (s.setDt v).keys = s.keys := rfl
@[simp] theorem State.setDt_draws (v : Byte) : (s.setDt v).draws = s.draws := rfl
@[simp] theorem State.setDt_config (v : Byte) : (s.setDt v).config = s.config := rfl
@[simp] theorem State.setDt_driver (v : Byte) : (s.setDt v).driver = s.driver := rfl
@[simp] theorem State.setDt_stepped (v : Byte) : (s.setDt v).stepped = s.stepped := rfl
@[simp] theorem State.setDt_reg (v : Byte) (i : Reg) : (s.setDt v).reg i = s.reg i := rfl
@[simp] theorem State.setDt_byteAt (v : Byte) (i : Nat) : (s.setDt v).byteAt i = s.byteAt i := rfl

/-! ### setSt -/

@[simp] theorem State.setSt_V (v : Byte) : (s.setSt v).V = s.V := rfl
@[simp] theorem State.setSt_I (v : Byte) : (s.setSt v).I = s.I := rfl
@[simp] theorem State.setSt_pc (v : Byte) : (s.setSt v).pc = s.pc := rfl
@[simp] theorem State.setSt_sp (v : Byte) : (s.setSt v).sp = s.sp := rfl
@[simp] theorem State.setSt_stack (v : Byte) : (s.setSt v).stack = s.stack := rfl
@[simp] theorem State.setSt_mem (v : Byte) : (s.setSt v).mem = s.mem := rfl
@[simp] theorem State.setSt_fb (v : Byte) : (s.setSt v).fb = s.fb := rfl
@[simp] theorem State.setSt_dt (v : Byte) : (s.setSt v).dt = s.dt := rfl
@[simp] theorem State.setSt_st (v : Byte) : (s.setSt v).st = v := rfl
@[simp] theorem State.setSt_fault (v : Byte) : (s.setSt v).fault = s.fault := rfl
@[simp] theorem State.setSt_keyPrev (v : Byte) : (s.setSt v).keyPrev = s.keyPrev := rfl
@[simp] theorem State.setSt_keys (v : Byte) : (s.setSt v).keys = s.keys := rfl
@[simp] theorem State.setSt_draws (v : Byte) : (s.setSt v).draws = s.draws := rfl
@[simp] theorem State.setSt_config (v : Byte) : (s.setSt v).config = s.config := rfl
@[simp] theorem State.setSt_driver (v : Byte) : (s.setSt v).driver = s.driver := rfl
@[simp] theorem State.setSt_stepped (v : Byte) : (s.setSt v).stepped = s.stepped := rfl
@[simp] theorem State.setSt_reg (v : Byte) (i : Reg) : (s.setSt v).reg i = s.reg i := rfl
@[simp] theorem State.setSt_byteAt (v : Byte) (i : Nat) : (s.setSt v).byteAt i = s.byteAt i := rfl

/-! ### setMem -/

@[simp] theorem State.setMem_V (m : Memory) : (s.setMem m).V = s.V := rfl
@[simp] theorem State.setMem_I (m : Memory) : (s.setMem m).I = s.I := rfl
@[simp] theorem State.setMem_pc (m : Memory) : (s.setMem m).pc = s.pc := rfl
@[simp] theorem State.setMem_sp (m : Memory) : (s.setMem m).sp = s.sp := rfl
@[simp] theorem State.setMem_stack (m : Memory) : (s.setMem m).stack = s.stack := rfl
@[simp] theorem State.setMem_mem (m : Memory) : (s.setMem m).mem = m := rfl
@[simp] theorem State.setMem_fb (m : Memory) : (s.setMem m).fb = s.fb := rfl
@[simp] theorem State.setMem_dt (m : Memory) : (s.setMem m).dt = s.dt := rfl
@[simp] theorem State.setMem_st (m : Memory) : (s.setMem m).st = s.st := rfl
@[simp] theorem State.setMem_fault (m : Memory) : (s.setMem m).fault = s.fault := rfl
@[simp] theorem State.setMem_keyPrev (m : Memory) : (s.setMem m).keyPrev = s.keyPrev := rfl
@[simp] theorem State.setMem_keys (m : Memory) : (s.setMem m).keys = s.keys := rfl
@[simp] theorem State.setMem_draws (m : Memory) : (s.setMem m).draws = s.draws := rfl
@[simp] theorem State.setMem_config (m : Memory) : (s.setMem m).config = s.config := rfl
@[simp] theorem State.setMem_driver (m : Memory) : (s.setMem m).driver = s.driver := rfl
@[simp] theorem State.setMem_stepped (m : Memory) : (s.setMem m).stepped = s.stepped := rfl
@[simp] theorem State.setMem_reg (m : Memory) (i : Reg) : (s.setMem m).reg i = s.reg i := rfl

/-! ### setFb -/

@[simp] theorem State.setFb_V (f : Framebuffer) : (s.setFb f).V = s.V := rfl
@[simp] theorem State.setFb_I (f : Framebuffer) : (s.setFb f).I = s.I := rfl
@[simp] theorem State.setFb_pc (f : Framebuffer) : (s.setFb f).pc = s.pc := rfl
@[simp] theorem State.setFb_sp (f : Framebuffer) : (s.setFb f).sp = s.sp := rfl
@[simp] theorem State.setFb_stack (f : Framebuffer) : (s.setFb f).stack = s.stack := rfl
@[simp] theorem State.setFb_mem (f : Framebuffer) : (s.setFb f).mem = s.mem := rfl
@[simp] theorem State.setFb_fb (f : Framebuffer) : (s.setFb f).fb = f := rfl
@[simp] theorem State.setFb_dt (f : Framebuffer) : (s.setFb f).dt = s.dt := rfl
@[simp] theorem State.setFb_st (f : Framebuffer) : (s.setFb f).st = s.st := rfl
@[simp] theorem State.setFb_fault (f : Framebuffer) : (s.setFb f).fault = s.fault := rfl
@[simp] theorem State.setFb_keyPrev (f : Framebuffer) : (s.setFb f).keyPrev = s.keyPrev := rfl
@[simp] theorem State.setFb_keys (f : Framebuffer) : (s.setFb f).keys = s.keys := rfl
@[simp] theorem State.setFb_draws (f : Framebuffer) : (s.setFb f).draws = s.draws := rfl
@[simp] theorem State.setFb_config (f : Framebuffer) : (s.setFb f).config = s.config := rfl
@[simp] theorem State.setFb_driver (f : Framebuffer) : (s.setFb f).driver = s.driver := rfl
@[simp] theorem State.setFb_stepped (f : Framebuffer) : (s.setFb f).stepped = s.stepped := rfl
@[simp] theorem State.setFb_reg (f : Framebuffer) (i : Reg) : (s.setFb f).reg i = s.reg i := rfl
@[simp] theorem State.setFb_byteAt (f : Framebuffer) (i : Nat) : (s.setFb f).byteAt i = s.byteAt i := rfl

/-! ### setStack -/

@[simp] theorem State.setStack_V (p : Fin 17) (w : Vector Word 16) : (s.setStack p w).V = s.V := rfl
@[simp] theorem State.setStack_I (p : Fin 17) (w : Vector Word 16) : (s.setStack p w).I = s.I := rfl
@[simp] theorem State.setStack_pc (p : Fin 17) (w : Vector Word 16) : (s.setStack p w).pc = s.pc := rfl
@[simp] theorem State.setStack_sp (p : Fin 17) (w : Vector Word 16) : (s.setStack p w).sp = p := rfl
@[simp] theorem State.setStack_stack (p : Fin 17) (w : Vector Word 16) : (s.setStack p w).stack = w := rfl
@[simp] theorem State.setStack_mem (p : Fin 17) (w : Vector Word 16) : (s.setStack p w).mem = s.mem := rfl
@[simp] theorem State.setStack_fb (p : Fin 17) (w : Vector Word 16) : (s.setStack p w).fb = s.fb := rfl
@[simp] theorem State.setStack_dt (p : Fin 17) (w : Vector Word 16) : (s.setStack p w).dt = s.dt := rfl
@[simp] theorem State.setStack_st (p : Fin 17) (w : Vector Word 16) : (s.setStack p w).st = s.st := rfl
@[simp] theorem State.setStack_fault (p : Fin 17) (w : Vector Word 16) : (s.setStack p w).fault = s.fault := rfl
@[simp] theorem State.setStack_keyPrev (p : Fin 17) (w : Vector Word 16) : (s.setStack p w).keyPrev = s.keyPrev := rfl
@[simp] theorem State.setStack_keys (p : Fin 17) (w : Vector Word 16) : (s.setStack p w).keys = s.keys := rfl
@[simp] theorem State.setStack_draws (p : Fin 17) (w : Vector Word 16) : (s.setStack p w).draws = s.draws := rfl
@[simp] theorem State.setStack_config (p : Fin 17) (w : Vector Word 16) : (s.setStack p w).config = s.config := rfl
@[simp] theorem State.setStack_driver (p : Fin 17) (w : Vector Word 16) : (s.setStack p w).driver = s.driver := rfl
@[simp] theorem State.setStack_stepped (p : Fin 17) (w : Vector Word 16) : (s.setStack p w).stepped = s.stepped := rfl
@[simp] theorem State.setStack_reg (p : Fin 17) (w : Vector Word 16) (i : Reg) : (s.setStack p w).reg i = s.reg i := rfl
@[simp] theorem State.setStack_byteAt (p : Fin 17) (w : Vector Word 16) (i : Nat) : (s.setStack p w).byteAt i = s.byteAt i := rfl

/-! ### setFault -/

@[simp] theorem State.setFault_V (f : Option Fault) : (s.setFault f).V = s.V := rfl
@[simp] theorem State.setFault_I (f : Option Fault) : (s.setFault f).I = s.I := rfl
@[simp] theorem State.setFault_pc (f : Option Fault) : (s.setFault f).pc = s.pc := rfl
@[simp] theorem State.setFault_sp (f : Option Fault) : (s.setFault f).sp = s.sp := rfl
@[simp] theorem State.setFault_stack (f : Option Fault) : (s.setFault f).stack = s.stack := rfl
@[simp] theorem State.setFault_mem (f : Option Fault) : (s.setFault f).mem = s.mem := rfl
@[simp] theorem State.setFault_fb (f : Option Fault) : (s.setFault f).fb = s.fb := rfl
@[simp] theorem State.setFault_dt (f : Option Fault) : (s.setFault f).dt = s.dt := rfl
@[simp] theorem State.setFault_st (f : Option Fault) : (s.setFault f).st = s.st := rfl
@[simp] theorem State.setFault_fault (f : Option Fault) : (s.setFault f).fault = f := rfl
@[simp] theorem State.setFault_keyPrev (f : Option Fault) : (s.setFault f).keyPrev = s.keyPrev := rfl
@[simp] theorem State.setFault_keys (f : Option Fault) : (s.setFault f).keys = s.keys := rfl
@[simp] theorem State.setFault_draws (f : Option Fault) : (s.setFault f).draws = s.draws := rfl
@[simp] theorem State.setFault_config (f : Option Fault) : (s.setFault f).config = s.config := rfl
@[simp] theorem State.setFault_driver (f : Option Fault) : (s.setFault f).driver = s.driver := rfl
@[simp] theorem State.setFault_stepped (f : Option Fault) : (s.setFault f).stepped = s.stepped := rfl
@[simp] theorem State.setFault_reg (f : Option Fault) (i : Reg) : (s.setFault f).reg i = s.reg i := rfl
@[simp] theorem State.setFault_byteAt (f : Option Fault) (i : Nat) : (s.setFault f).byteAt i = s.byteAt i := rfl

/-! ### setKeyPrev -/

@[simp] theorem State.setKeyPrev_V (k : Word) : (s.setKeyPrev k).V = s.V := rfl
@[simp] theorem State.setKeyPrev_I (k : Word) : (s.setKeyPrev k).I = s.I := rfl
@[simp] theorem State.setKeyPrev_pc (k : Word) : (s.setKeyPrev k).pc = s.pc := rfl
@[simp] theorem State.setKeyPrev_sp (k : Word) : (s.setKeyPrev k).sp = s.sp := rfl
@[simp] theorem State.setKeyPrev_stack (k : Word) : (s.setKeyPrev k).stack = s.stack := rfl
@[simp] theorem State.setKeyPrev_mem (k : Word) : (s.setKeyPrev k).mem = s.mem := rfl
@[simp] theorem State.setKeyPrev_fb (k : Word) : (s.setKeyPrev k).fb = s.fb := rfl
@[simp] theorem State.setKeyPrev_dt (k : Word) : (s.setKeyPrev k).dt = s.dt := rfl
@[simp] theorem State.setKeyPrev_st (k : Word) : (s.setKeyPrev k).st = s.st := rfl
@[simp] theorem State.setKeyPrev_fault (k : Word) : (s.setKeyPrev k).fault = s.fault := rfl
@[simp] theorem State.setKeyPrev_keyPrev (k : Word) : (s.setKeyPrev k).keyPrev = k := rfl
@[simp] theorem State.setKeyPrev_keys (k : Word) : (s.setKeyPrev k).keys = s.keys := rfl
@[simp] theorem State.setKeyPrev_draws (k : Word) : (s.setKeyPrev k).draws = s.draws := rfl
@[simp] theorem State.setKeyPrev_config (k : Word) : (s.setKeyPrev k).config = s.config := rfl
@[simp] theorem State.setKeyPrev_driver (k : Word) : (s.setKeyPrev k).driver = s.driver := rfl
@[simp] theorem State.setKeyPrev_stepped (k : Word) : (s.setKeyPrev k).stepped = s.stepped := rfl
@[simp] theorem State.setKeyPrev_reg (k : Word) (i : Reg) : (s.setKeyPrev k).reg i = s.reg i := rfl
@[simp] theorem State.setKeyPrev_byteAt (k : Word) (i : Nat) : (s.setKeyPrev k).byteAt i = s.byteAt i := rfl

/-! ### setKeys -/

@[simp] theorem State.setKeys_V (k : Word) : (s.setKeys k).V = s.V := rfl
@[simp] theorem State.setKeys_I (k : Word) : (s.setKeys k).I = s.I := rfl
@[simp] theorem State.setKeys_pc (k : Word) : (s.setKeys k).pc = s.pc := rfl
@[simp] theorem State.setKeys_sp (k : Word) : (s.setKeys k).sp = s.sp := rfl
@[simp] theorem State.setKeys_stack (k : Word) : (s.setKeys k).stack = s.stack := rfl
@[simp] theorem State.setKeys_mem (k : Word) : (s.setKeys k).mem = s.mem := rfl
@[simp] theorem State.setKeys_fb (k : Word) : (s.setKeys k).fb = s.fb := rfl
@[simp] theorem State.setKeys_dt (k : Word) : (s.setKeys k).dt = s.dt := rfl
@[simp] theorem State.setKeys_st (k : Word) : (s.setKeys k).st = s.st := rfl
@[simp] theorem State.setKeys_fault (k : Word) : (s.setKeys k).fault = s.fault := rfl
@[simp] theorem State.setKeys_keyPrev (k : Word) : (s.setKeys k).keyPrev = s.keyPrev := rfl
@[simp] theorem State.setKeys_keys (k : Word) : (s.setKeys k).keys = k := rfl
@[simp] theorem State.setKeys_draws (k : Word) : (s.setKeys k).draws = s.draws := rfl
@[simp] theorem State.setKeys_config (k : Word) : (s.setKeys k).config = s.config := rfl
@[simp] theorem State.setKeys_driver (k : Word) : (s.setKeys k).driver = s.driver := rfl
@[simp] theorem State.setKeys_stepped (k : Word) : (s.setKeys k).stepped = s.stepped := rfl
@[simp] theorem State.setKeys_reg (k : Word) (i : Reg) : (s.setKeys k).reg i = s.reg i := rfl
@[simp] theorem State.setKeys_byteAt (k : Word) (i : Nat) : (s.setKeys k).byteAt i = s.byteAt i := rfl

/-! ### drawn -/

@[simp] theorem State.drawn_V : (s.drawn).V = s.V := rfl
@[simp] theorem State.drawn_I : (s.drawn).I = s.I := rfl
@[simp] theorem State.drawn_pc : (s.drawn).pc = s.pc := rfl
@[simp] theorem State.drawn_sp : (s.drawn).sp = s.sp := rfl
@[simp] theorem State.drawn_stack : (s.drawn).stack = s.stack := rfl
@[simp] theorem State.drawn_mem : (s.drawn).mem = s.mem := rfl
@[simp] theorem State.drawn_fb : (s.drawn).fb = s.fb := rfl
@[simp] theorem State.drawn_dt : (s.drawn).dt = s.dt := rfl
@[simp] theorem State.drawn_st : (s.drawn).st = s.st := rfl
@[simp] theorem State.drawn_fault : (s.drawn).fault = s.fault := rfl
@[simp] theorem State.drawn_keyPrev : (s.drawn).keyPrev = s.keyPrev := rfl
@[simp] theorem State.drawn_keys : (s.drawn).keys = s.keys := rfl
@[simp] theorem State.drawn_draws : (s.drawn).draws = s.draws + 1 := rfl
@[simp] theorem State.drawn_config : (s.drawn).config = s.config := rfl
@[simp] theorem State.drawn_driver : (s.drawn).driver = s.driver := rfl
@[simp] theorem State.drawn_stepped : (s.drawn).stepped = s.stepped := rfl
@[simp] theorem State.drawn_reg (i : Reg) : (s.drawn).reg i = s.reg i := rfl
@[simp] theorem State.drawn_byteAt (i : Nat) : (s.drawn).byteAt i = s.byteAt i := rfl

/-! ### setDriver -/

@[simp] theorem State.setDriver_V (d : List Invocation) : (s.setDriver d).V = s.V := rfl
@[simp] theorem State.setDriver_I (d : List Invocation) : (s.setDriver d).I = s.I := rfl
@[simp] theorem State.setDriver_pc (d : List Invocation) : (s.setDriver d).pc = s.pc := rfl
@[simp] theorem State.setDriver_sp (d : List Invocation) : (s.setDriver d).sp = s.sp := rfl
@[simp] theorem State.setDriver_stack (d : List Invocation) : (s.setDriver d).stack = s.stack := rfl
@[simp] theorem State.setDriver_mem (d : List Invocation) : (s.setDriver d).mem = s.mem := rfl
@[simp] theorem State.setDriver_fb (d : List Invocation) : (s.setDriver d).fb = s.fb := rfl
@[simp] theorem State.setDriver_dt (d : List Invocation) : (s.setDriver d).dt = s.dt := rfl
@[simp] theorem State.setDriver_st (d : List Invocation) : (s.setDriver d).st = s.st := rfl
@[simp] theorem State.setDriver_fault (d : List Invocation) : (s.setDriver d).fault = s.fault := rfl
@[simp] theorem State.setDriver_keyPrev (d : List Invocation) : (s.setDriver d).keyPrev = s.keyPrev := rfl
@[simp] theorem State.setDriver_keys (d : List Invocation) : (s.setDriver d).keys = s.keys := rfl
@[simp] theorem State.setDriver_draws (d : List Invocation) : (s.setDriver d).draws = s.draws := rfl
@[simp] theorem State.setDriver_config (d : List Invocation) : (s.setDriver d).config = s.config := rfl
@[simp] theorem State.setDriver_driver (d : List Invocation) : (s.setDriver d).driver = d := rfl
@[simp] theorem State.setDriver_stepped (d : List Invocation) : (s.setDriver d).stepped = s.stepped := rfl
@[simp] theorem State.setDriver_reg (d : List Invocation) (i : Reg) : (s.setDriver d).reg i = s.reg i := rfl
@[simp] theorem State.setDriver_byteAt (d : List Invocation) (i : Nat) : (s.setDriver d).byteAt i = s.byteAt i := rfl

/-! ### markStepped -/

@[simp] theorem State.markStepped_V : (s.markStepped).V = s.V := rfl
@[simp] theorem State.markStepped_I : (s.markStepped).I = s.I := rfl
@[simp] theorem State.markStepped_pc : (s.markStepped).pc = s.pc := rfl
@[simp] theorem State.markStepped_sp : (s.markStepped).sp = s.sp := rfl
@[simp] theorem State.markStepped_stack : (s.markStepped).stack = s.stack := rfl
@[simp] theorem State.markStepped_mem : (s.markStepped).mem = s.mem := rfl
@[simp] theorem State.markStepped_fb : (s.markStepped).fb = s.fb := rfl
@[simp] theorem State.markStepped_dt : (s.markStepped).dt = s.dt := rfl
@[simp] theorem State.markStepped_st : (s.markStepped).st = s.st := rfl
@[simp] theorem State.markStepped_fault : (s.markStepped).fault = s.fault := rfl
@[simp] theorem State.markStepped_keyPrev : (s.markStepped).keyPrev = s.keyPrev := rfl
@[simp] theorem State.markStepped_keys : (s.markStepped).keys = s.keys := rfl
@[simp] theorem State.markStepped_draws : (s.markStepped).draws = s.draws := rfl
@[simp] theorem State.markStepped_config : (s.markStepped).config = s.config := rfl
@[simp] theorem State.markStepped_driver : (s.markStepped).driver = s.driver := rfl
@[simp] theorem State.markStepped_stepped : (s.markStepped).stepped = true := rfl
@[simp] theorem State.markStepped_reg (i : Reg) : (s.markStepped).reg i = s.reg i := rfl
@[simp] theorem State.markStepped_byteAt (i : Nat) : (s.markStepped).byteAt i = s.byteAt i := rfl

/-! ### advance -/

@[simp] theorem State.advance_V : (s.advance).V = s.V := rfl
@[simp] theorem State.advance_I : (s.advance).I = s.I := rfl
@[simp] theorem State.advance_pc : (s.advance).pc = s.pc + 2 := rfl
@[simp] theorem State.advance_sp : (s.advance).sp = s.sp := rfl
@[simp] theorem State.advance_stack : (s.advance).stack = s.stack := rfl
@[simp] theorem State.advance_mem : (s.advance).mem = s.mem := rfl
@[simp] theorem State.advance_fb : (s.advance).fb = s.fb := rfl
@[simp] theorem State.advance_dt : (s.advance).dt = s.dt := rfl
@[simp] theorem State.advance_st : (s.advance).st = s.st := rfl
@[simp] theorem State.advance_fault : (s.advance).fault = s.fault := rfl
@[simp] theorem State.advance_keyPrev : (s.advance).keyPrev = s.keyPrev := rfl
@[simp] theorem State.advance_keys : (s.advance).keys = s.keys := rfl
@[simp] theorem State.advance_draws : (s.advance).draws = s.draws := rfl
@[simp] theorem State.advance_config : (s.advance).config = s.config := rfl
@[simp] theorem State.advance_driver : (s.advance).driver = s.driver := rfl
@[simp] theorem State.advance_stepped : (s.advance).stepped = s.stepped := rfl
@[simp] theorem State.advance_reg (i : Reg) : (s.advance).reg i = s.reg i := rfl
@[simp] theorem State.advance_byteAt (i : Nat) : (s.advance).byteAt i = s.byteAt i := rfl

/-! ### skipIf -/

@[simp] theorem State.skipIf_V (c : Bool) : (s.skipIf c).V = s.V := rfl
@[simp] theorem State.skipIf_I (c : Bool) : (s.skipIf c).I = s.I := rfl
@[simp] theorem State.skipIf_pc (c : Bool) : (s.skipIf c).pc = if c then s.pc + 4 else s.pc + 2 := rfl
@[simp] theorem State.skipIf_sp (c : Bool) : (s.skipIf c).sp = s.sp := rfl
@[simp] theorem State.skipIf_stack (c : Bool) : (s.skipIf c).stack = s.stack := rfl
@[simp] theorem State.skipIf_mem (c : Bool) : (s.skipIf c).mem = s.mem := rfl
@[simp] theorem State.skipIf_fb (c : Bool) : (s.skipIf c).fb = s.fb := rfl
@[simp] theorem State.skipIf_dt (c : Bool) : (s.skipIf c).dt = s.dt := rfl
@[simp] theorem State.skipIf_st (c : Bool) : (s.skipIf c).st = s.st := rfl
@[simp] theorem State.skipIf_fault (c : Bool) : (s.skipIf c).fault = s.fault := rfl
@[simp] theorem State.skipIf_keyPrev (c : Bool) : (s.skipIf c).keyPrev = s.keyPrev := rfl
@[simp] theorem State.skipIf_keys (c : Bool) : (s.skipIf c).keys = s.keys := rfl
@[simp] theorem State.skipIf_draws (c : Bool) : (s.skipIf c).draws = s.draws := rfl
@[simp] theorem State.skipIf_config (c : Bool) : (s.skipIf c).config = s.config := rfl
@[simp] theorem State.skipIf_driver (c : Bool) : (s.skipIf c).driver = s.driver := rfl
@[simp] theorem State.skipIf_stepped (c : Bool) : (s.skipIf c).stepped = s.stepped := rfl
@[simp] theorem State.skipIf_reg (c : Bool) (i : Reg) : (s.skipIf c).reg i = s.reg i := rfl
@[simp] theorem State.skipIf_byteAt (c : Bool) (i : Nat) : (s.skipIf c).byteAt i = s.byteAt i := rfl

/-! ### setFlagThenResult -/

@[simp] theorem State.setFlagThenResult_V (x : Reg) (f v : Byte) : (s.setFlagThenResult x f v).V = (s.V.set vf f).set x v := rfl
@[simp] theorem State.setFlagThenResult_I (x : Reg) (f v : Byte) : (s.setFlagThenResult x f v).I = s.I := rfl
@[simp] theorem State.setFlagThenResult_pc (x : Reg) (f v : Byte) : (s.setFlagThenResult x f v).pc = s.pc := rfl
@[simp] theorem State.setFlagThenResult_sp (x : Reg) (f v : Byte) : (s.setFlagThenResult x f v).sp = s.sp := rfl
@[simp] theorem State.setFlagThenResult_stack (x : Reg) (f v : Byte) : (s.setFlagThenResult x f v).stack = s.stack := rfl
@[simp] theorem State.setFlagThenResult_mem (x : Reg) (f v : Byte) : (s.setFlagThenResult x f v).mem = s.mem := rfl
@[simp] theorem State.setFlagThenResult_fb (x : Reg) (f v : Byte) : (s.setFlagThenResult x f v).fb = s.fb := rfl
@[simp] theorem State.setFlagThenResult_dt (x : Reg) (f v : Byte) : (s.setFlagThenResult x f v).dt = s.dt := rfl
@[simp] theorem State.setFlagThenResult_st (x : Reg) (f v : Byte) : (s.setFlagThenResult x f v).st = s.st := rfl
@[simp] theorem State.setFlagThenResult_fault (x : Reg) (f v : Byte) : (s.setFlagThenResult x f v).fault = s.fault := rfl
@[simp] theorem State.setFlagThenResult_keyPrev (x : Reg) (f v : Byte) : (s.setFlagThenResult x f v).keyPrev = s.keyPrev := rfl
@[simp] theorem State.setFlagThenResult_keys (x : Reg) (f v : Byte) : (s.setFlagThenResult x f v).keys = s.keys := rfl
@[simp] theorem State.setFlagThenResult_draws (x : Reg) (f v : Byte) : (s.setFlagThenResult x f v).draws = s.draws := rfl
@[simp] theorem State.setFlagThenResult_config (x : Reg) (f v : Byte) : (s.setFlagThenResult x f v).config = s.config := rfl
@[simp] theorem State.setFlagThenResult_driver (x : Reg) (f v : Byte) : (s.setFlagThenResult x f v).driver = s.driver := rfl
@[simp] theorem State.setFlagThenResult_stepped (x : Reg) (f v : Byte) : (s.setFlagThenResult x f v).stepped = s.stepped := rfl
@[simp] theorem State.setFlagThenResult_byteAt (x : Reg) (f v : Byte) (i : Nat) : (s.setFlagThenResult x f v).byteAt i = s.byteAt i := rfl

/-! ### tick -/

@[simp] theorem State.tick_V : (s.tick).V = s.V := rfl
@[simp] theorem State.tick_I : (s.tick).I = s.I := rfl
@[simp] theorem State.tick_pc : (s.tick).pc = s.pc := rfl
@[simp] theorem State.tick_sp : (s.tick).sp = s.sp := rfl
@[simp] theorem State.tick_stack : (s.tick).stack = s.stack := rfl
@[simp] theorem State.tick_mem : (s.tick).mem = s.mem := rfl
@[simp] theorem State.tick_fb : (s.tick).fb = s.fb := rfl
@[simp] theorem State.tick_dt : (s.tick).dt = ticked s.dt := rfl
@[simp] theorem State.tick_st : (s.tick).st = ticked s.st := rfl
@[simp] theorem State.tick_fault : (s.tick).fault = s.fault := rfl
@[simp] theorem State.tick_keyPrev : (s.tick).keyPrev = s.keyPrev := rfl
@[simp] theorem State.tick_keys : (s.tick).keys = s.keys := rfl
@[simp] theorem State.tick_draws : (s.tick).draws = s.draws := rfl
@[simp] theorem State.tick_config : (s.tick).config = s.config := rfl
@[simp] theorem State.tick_driver : (s.tick).driver = s.driver := rfl
@[simp] theorem State.tick_stepped : (s.tick).stepped = s.stepped := rfl
@[simp] theorem State.tick_reg (i : Reg) : (s.tick).reg i = s.reg i := rfl
@[simp] theorem State.tick_byteAt (i : Nat) : (s.tick).byteAt i = s.byteAt i := rfl

/-! ### Reading a register after a write -/

@[simp] theorem State.reg_setReg_same (r : Reg) (v : Byte) : (s.setReg r v).reg r = v := by
  simp [State.reg, State.setReg]

theorem State.reg_setReg_ne {r i : Reg} (v : Byte) (h : i ≠ r) : (s.setReg r v).reg i = s.reg i := by
  simp only [State.reg, State.setReg, Fin.getElem_fin]
  exact Vector.getElem_set_ne _ _ (fun e => h (Fin.ext e.symm))

/-- The result is the last write (R147). -/
@[simp] theorem State.reg_setFlagThenResult_dest (x : Reg) (f v : Byte) :
    (s.setFlagThenResult x f v).reg x = v := State.reg_setReg_same _ x v

/-- VF keeps the flag unless it is the destination (R147). -/
theorem State.reg_setFlagThenResult_flag {x : Reg} (f v : Byte) (h : x ≠ vf) :
    (s.setFlagThenResult x f v).reg vf = f := by
  rw [State.setFlagThenResult, State.reg_setReg_ne _ _ h.symm, State.reg_setReg_same]

theorem State.reg_setFlagThenResult_other {x i : Reg} (f v : Byte) (h : i ≠ x) (hf : i ≠ vf) :
    (s.setFlagThenResult x f v).reg i = s.reg i := by
  rw [State.setFlagThenResult, State.reg_setReg_ne _ _ h, State.reg_setReg_ne _ _ hf]

end Sys2Proof.Machine
end

