-- ==== Sys2Proof/Laws/Ops.lean ====
section
/-! SUPPORT. One lemma per shared operation that says everything it can do; proofs cite these and do not unfold
the operations. -/

namespace Sys2Proof.Machine

/-! ## Faults -/

/-- How an instruction that may fault ends: with its staged writes, or with the fault register set and nothing
else changed (R105, R217). -/
theorem settle_cases (s : State) (r : Except Fault State) :
    (∃ t, r = .ok t ∧ settle s r = .next t) ∨
    (∃ f, r = .error f ∧ settle s r = .next (s.setFault (some f))) := by
  cases r with
  | ok t => exact .inl ⟨t, rfl, rfl⟩
  | error f => exact .inr ⟨f, rfl, rfl⟩

@[simp] theorem settle_ok (s t : State) : settle s (.ok t) = .next t := rfl

@[simp] theorem settle_error (s : State) (f : Fault) : settle s (.error f) = .next (s.setFault (some f)) := rfl

@[simp] theorem map_ok {α β : Type} (g : α → β) (a : α) :
    (Except.ok a : Except Fault α).map g = .ok (g a) := rfl

@[simp] theorem map_error {α β : Type} (g : α → β) (f : Fault) :
    (Except.error f : Except Fault α).map g = .error f := rfl

/-! ## Stack -/

/-- R123: what a push does with a frame left. -/
theorem State.push_ok {s : State} (w : Word) (h : s.sp.val < 16) :
    s.push w = .ok (s.setStack ⟨s.sp.val + 1, by omega⟩ (s.stack.set s.sp.val w)) := dif_pos h

/-- R212: what a push does with 16 frames in use. -/
theorem State.push_full {s : State} (w : Word) (h : s.sp.val = 16) : s.push w = .error .stackOverflow :=
  dif_neg (by omega)

/-- R121: what a pop does with a frame in use. -/
theorem State.pop_ok {s : State} (h : 0 < s.sp.val) :
    s.pop = .ok (s.stack[s.sp.val - 1]'(by omega), s.setStack ⟨s.sp.val - 1, by omega⟩ s.stack) := dif_pos h

/-- R213: what a pop does on an empty stack. -/
theorem State.pop_empty {s : State} (h : s.sp.val = 0) : s.pop = .error .stackUnderflow :=
  dif_neg (by omega)

/-! ## Memory blocks -/

/-- R50, R65: a block fits when it is empty or its last address is at most 4095. -/
theorem blockFits_iff (base n : Nat) : blockFits base n = true ↔ n = 0 ∨ base + (n - 1) ≤ 4095 := by
  simp [blockFits]

/-- The byte at an address after a block is stored. -/
theorem State.byteAt_setMem_writeAll (s : State) (base : Nat) (bs : List Byte) (a : Nat) :
    (s.setMem (s.mem.writeAll s.config base bs)).byteAt a =
      if h : base ≤ a ∧ a < base + bs.length then bs[a - base]'(by omega) else s.byteAt a :=
  Memory.read_writeAll s.config bs base s.mem a

/-- R53, R65: everything a block store can do. -/
theorem State.writeBlock_cases (s : State) (base : Nat) (bs : List Byte) :
    (blockFits base bs.length = true ∧
      s.writeBlock base bs = .ok (s.setMem (s.mem.writeAll s.config base bs))) ∨
    (blockFits base bs.length = false ∧ s.writeBlock base bs = .error .addressFault) := by
  unfold State.writeBlock
  cases h : blockFits base bs.length <;> simp

/-- R52, R65: everything a block read can do. -/
theorem State.readBlock_cases (s : State) (base n : Nat) :
    (blockFits base n = true ∧ s.readBlock base n = .ok (s.mem.readAll s.config base n)) ∨
    (blockFits base n = false ∧ s.readBlock base n = .error .addressFault) := by
  unfold State.readBlock
  cases h : blockFits base n <;> simp

/-- R54: everything a fetch can do. -/
theorem State.fetch_cases (s : State) :
    (s.pc.toNat ≤ 4094 ∧ s.fetch = .ok (s.byteAt s.pc.toNat ++ s.byteAt (s.pc.toNat + 1))) ∨
    (4094 < s.pc.toNat ∧ s.fetch = .error .addressFault) := by
  unfold State.fetch
  by_cases h : s.pc.toNat + 1 > 4095
  · exact .inr ⟨by omega, if_pos h⟩
  · exact .inl ⟨by omega, if_neg h⟩

/-! ## Register blocks -/

/-- R166: the registers in the filled range hold the bytes, the others are unchanged. -/
theorem getElem_fillRegs (bs : List Byte) (V : Vector Byte 16) (i : Nat) (k : Nat) (hk : k < 16) :
    (fillRegs V i bs)[k] = if h : i ≤ k ∧ k < i + bs.length then bs[k - i]'(by omega) else V[k] := by
  induction bs generalizing V i with
  | nil => simp [fillRegs]
  | cons b bs ih =>
    rw [fillRegs, ih]
    by_cases hik : k = i
    · subst hik; simp
    · by_cases h : i + 1 ≤ k ∧ k < i + 1 + bs.length
      · have h' : i ≤ k ∧ k < i + (b :: bs).length := by simp only [List.length_cons]; omega
        rw [dif_pos h, dif_pos h']
        have : k - i = k - (i + 1) + 1 := by omega
        simp [this]
      · have h' : ¬(i ≤ k ∧ k < i + (b :: bs).length) := by simp only [List.length_cons]; omega
        rw [dif_neg h, dif_neg h']
        exact Vector.getElem_setIfInBounds_ne hk (fun e => hik e.symm)

/-- R165: a dump stores `X + 1` bytes. -/
@[simp] theorem State.length_regsUpTo (s : State) (x : Reg) : (s.regsUpTo x).length = x.val + 1 := by
  simp [State.regsUpTo]

/-- R165: byte `k` of a dump is `V[k]`. -/
theorem State.getElem_regsUpTo (s : State) (x : Reg) (k : Nat) (h : k < (s.regsUpTo x).length) :
    (s.regsUpTo x)[k] = s.V[k]'(by simp at h; omega) := by
  simp [State.regsUpTo]

/-! ## Pixels -/

/-- A toggled pixel is inverted. -/
@[simp] theorem pixel_togglePixel_same (fb : Framebuffer) (x : Fin 64) (y : Fin 32) :
    pixel (togglePixel fb x y) x y = !pixel fb x y := by
  simp [pixel, togglePixel]

/-- Toggling one pixel leaves every other. -/
theorem pixel_togglePixel_ne (fb : Framebuffer) {x x' : Fin 64} {y y' : Fin 32} (h : x' ≠ x ∨ y' ≠ y) :
    pixel (togglePixel fb x y) x' y' = pixel fb x' y' := by
  by_cases hy : y' = y
  · subst hy
    have hx : x.val ≠ x'.val := fun e => (h.resolve_right (by simp)) (Fin.ext e.symm)
    simp [pixel, togglePixel, Vector.getElem_set_ne _ _ hx]
  · have hy' : y.val ≠ y'.val := fun e => hy (Fin.ext e.symm)
    simp [pixel, togglePixel, Vector.getElem_set_ne _ _ hy']

/-- R181: one sprite bit at one pixel changes no other pixel. -/
theorem Canvas.plot_pixel_ne (k : Canvas) (bit : Bool) {x x' : Fin 64} {y y' : Fin 32}
    (h : x' ≠ x ∨ y' ≠ y) : pixel (k.plot bit x y).fb x' y' = pixel k.fb x' y' := by
  cases bit
  · rfl
  · exact pixel_togglePixel_ne k.fb h

/-- R182 (d) for one bit: the pixel is XORed with it, and a hit is recorded when both are 1. -/
theorem Canvas.plot_pixel_same (k : Canvas) (bit : Bool) (x : Fin 64) (y : Fin 32) :
    pixel (k.plot bit x y).fb x y = (pixel k.fb x y ^^ bit) ∧
    (k.plot bit x y).hit = (k.hit || (bit && pixel k.fb x y)) := by
  cases bit <;> simp [Canvas.plot]

@[simp] theorem pixel_blankScreen (x : Fin 64) (y : Fin 32) : pixel blankScreen x y = false := by
  simp [pixel, blankScreen]

/-! ## Keys and timers -/

/-- R194: with no newly pressed key there is no least one. -/
theorem leastKey_none_iff (w : Word) : leastKey w = none ↔ ∀ k, k < 16 → w.getLsbD k = false := by
  simp [leastKey]

/-- R194: the least key is pressed and no smaller one is. -/
theorem leastKey_some_iff (w : Word) (k : Nat) :
    leastKey w = some k ↔ k < 16 ∧ w.getLsbD k = true ∧ ∀ j, j < k → w.getLsbD j = false := by
  simp only [leastKey, List.find?_range_eq_some]
  constructor
  · rintro ⟨h, hk, hj⟩; exact ⟨List.mem_range.mp hk, h, fun j hlt => by simpa using hj j hlt⟩
  · rintro ⟨hk, h, hj⟩; exact ⟨h, List.mem_range.mpr hk, fun j hlt => by simp [hj j hlt]⟩

/-- R198: a timer loses one and stops at 0. -/
theorem ticked_toNat (t : Byte) : (ticked t).toNat = t.toNat - 1 := by
  unfold ticked
  split
  · bv_omega
  · omega

/-- R106: the end of a Step. -/
theorem State.commit_cases (s : State) :
    (s.fault = none ∧ s.commit = s.setKeyPrev s.keys) ∨ (s.fault ≠ none ∧ s.commit = s) := by
  unfold State.commit
  by_cases h : s.fault = none
  · exact .inl ⟨h, if_pos h⟩
  · exact .inr ⟨h, if_neg h⟩

/-! ## Values -/

theorem lowNibble_eq (a : Byte) : lowNibble a = a.toNat % 16 := by
  simpa [lowNibble] using Nat.and_two_pow_sub_one_eq_mod a.toNat 4

@[simp] theorem zext16_toNat (nnn : BitVec 12) : (zext16 nnn).toNat = nnn.toNat := by
  simp [zext16]; omega

theorem sumByte_toNat (a b : Byte) : (sumByte a b).toNat = (a.toNat + b.toNat) % 256 := by
  simp [sumByte]

theorem diffByte_toNat (m s : Byte) : (diffByte m s).toNat = (m.toNat + 256 - s.toNat) % 256 := by
  simp [diffByte]; omega

theorem addIndex_toNat (i : Word) (a : Byte) : (addIndex i a).toNat = (i.toNat + a.toNat) % 4096 := by
  simp [addIndex]; omega

theorem glyphAddress_toNat (c : Config) (a : Byte) :
    (glyphAddress c a).toNat = c.fontBase.val + 5 * (a.toNat % 16) := by
  simp [glyphAddress, lowNibble_eq]; omega

theorem offsetTarget_toNat (nnn : BitVec 12) (a : Byte) :
    (offsetTarget nnn a).toNat = nnn.toNat + a.toNat := by
  simp [offsetTarget]; omega

theorem shrByte_toNat (a : Byte) : (shrByte a).toNat = a.toNat / 2 := by
  simp [shrByte, Nat.shiftRight_eq_div_pow]

theorem shlByte_toNat (a : Byte) : (shlByte a).toNat = a.toNat * 2 % 256 := by
  simp [shlByte, Nat.shiftLeft_eq]

theorem shrOut_toNat (a : Byte) : (shrOut a).toNat = a.toNat % 2 := by
  simp [shrOut, Nat.and_one_is_mod]

theorem shlOut_toNat (a : Byte) : (shlOut a).toNat = a.toNat / 128 := by
  revert a; decide

@[simp] theorem length_bcdDigits (v : Byte) : (bcdDigits v).length = 3 := rfl

end Sys2Proof.Machine
end

