-- ==== Sys2Proof/Laws/PerInstr.lean ====
section
/-! SUPPORT. The family EncodingRow, one lemma per instruction: the opcode an instruction is encoded as selects
the row of its own mnemonic in the table of spec/30_encoding.md R80, which is written apart from the encoder. -/

namespace Sys2Proof.Laws.EncodingRow

/-- The row of the mnemonic of `i` is in the table, and the opcode of `i` selects it. -/
def Statement (i : Instr) : Prop := ∃ r ∈ opcodeRows, r.mnemonic = i.mnemonic ∧ r.selects (encode i) = true

/-! ## Masks of the formats -/

theorem append_and_append {m n : Nat} (a c : BitVec m) (b d : BitVec n) :
    (a ++ b) &&& (c ++ d) = (a &&& c) ++ (b &&& d) := by
  ext i hi
  simp only [BitVec.getElem_and, BitVec.getElem_append]
  split <;> simp

theorem and_zero_lit {n : Nat} (a : BitVec n) : a &&& (0 : BitVec n) = 0 := BitVec.and_zero

theorem layNNN_class (op : BitVec 4) (nnn : BitVec 12) :
    layNNN op nnn &&& 0xF000 = (op ++ (0 : BitVec 12) : BitVec (4 + 12)) := by
  have h : (0xF000 : Word) = ((0xF : BitVec 4) ++ (0 : BitVec 12) : BitVec (4 + 12)) := rfl
  rw [h, layNNN]
  refine (append_and_append _ _ _ _).trans ?_
  rw [and_zero_lit]
  congr 1
  exact BitVec.and_allOnes

theorem layXNN_class (op : BitVec 4) (x : Reg) (nn : Byte) :
    layXNN op x nn &&& 0xF000 = (op ++ (0 : BitVec 12) : BitVec (4 + 12)) := layNNN_class op _

theorem layXYN_class (op : BitVec 4) (x y : Reg) (n : BitVec 4) :
    layXYN op x y n &&& 0xF000 = (op ++ (0 : BitVec 12) : BitVec (4 + 12)) := layNNN_class op _

theorem layXYN_selector (op : BitVec 4) (x y : Reg) (n : BitVec 4) :
    layXYN op x y n &&& 0xF00F =
      (op ++ ((0 : BitVec 4) ++ ((0 : BitVec 4) ++ n : BitVec (4 + 4)) : BitVec (4 + 8)) : BitVec (4 + 12)) := by
  have h : (0xF00F : Word) = ((0xF : BitVec 4) ++ ((0 : BitVec 4) ++ ((0 : BitVec 4) ++ (0xF : BitVec 4) :
    BitVec (4 + 4)) : BitVec (4 + 8)) : BitVec (4 + 12)) := rfl
  rw [h, layXYN]
  refine (append_and_append _ _ _ _).trans ?_
  congr 1
  · exact BitVec.and_allOnes
  · refine (append_and_append _ _ _ _).trans ?_
    have hl : (regField y ++ n : BitVec (4 + 4)) &&& ((0 : BitVec 4) ++ (0xF : BitVec 4)) =
        ((0 : BitVec 4) ++ n : BitVec (4 + 4)) := by
      refine (append_and_append _ _ _ _).trans ?_
      rw [and_zero_lit]
      congr 1
      exact BitVec.and_allOnes
    rw [and_zero_lit]
    exact congrArg (fun z : BitVec (4 + 4) => ((0 : BitVec 4) ++ z : BitVec (4 + 8))) hl

theorem layXNN_selector (op : BitVec 4) (x : Reg) (nn : Byte) :
    layXNN op x nn &&& 0xF0FF = (op ++ ((0 : BitVec 4) ++ nn : BitVec (4 + 8)) : BitVec (4 + 12)) := by
  have h : (0xF0FF : Word) = ((0xF : BitVec 4) ++ ((0 : BitVec 4) ++ (0xFF : BitVec 8) : BitVec (4 + 8)) :
    BitVec (4 + 12)) := rfl
  rw [h, layXNN]
  refine (append_and_append _ _ _ _).trans ?_
  congr 1
  · exact BitVec.and_allOnes
  · refine (append_and_append _ _ _ _).trans ?_
    rw [and_zero_lit]
    congr 1
    exact BitVec.and_allOnes

/-! ## One lemma per instruction -/

theorem clearScreen : Statement (.clearScreen) :=
  ⟨⟨"clear-screen", 0x00E0, 0xFFFF⟩, by simp [opcodeRows, opcodeRowsLow, opcodeRowsAlu, opcodeRowsHigh,
    opcodeRowsMisc], rfl, beq_iff_eq.mpr (rfl)⟩

theorem ret : Statement (.ret) :=
  ⟨⟨"return", 0x00EE, 0xFFFF⟩, by simp [opcodeRows, opcodeRowsLow, opcodeRowsAlu, opcodeRowsHigh,
    opcodeRowsMisc], rfl, beq_iff_eq.mpr (rfl)⟩

theorem jump (nnn : BitVec 12) : Statement (.jump nnn) :=
  ⟨⟨"jump", 0x1000, 0xF000⟩, by simp [opcodeRows, opcodeRowsLow, opcodeRowsAlu, opcodeRowsHigh,
    opcodeRowsMisc], rfl, beq_iff_eq.mpr (layNNN_class _ nnn)⟩

theorem call (nnn : BitVec 12) : Statement (.call nnn) :=
  ⟨⟨"call", 0x2000, 0xF000⟩, by simp [opcodeRows, opcodeRowsLow, opcodeRowsAlu, opcodeRowsHigh,
    opcodeRowsMisc], rfl, beq_iff_eq.mpr (layNNN_class _ nnn)⟩

theorem skipEqImm (x : Reg) (nn : Byte) : Statement (.skipEqImm x nn) :=
  ⟨⟨"skip-eq-imm", 0x3000, 0xF000⟩, by simp [opcodeRows, opcodeRowsLow, opcodeRowsAlu, opcodeRowsHigh,
    opcodeRowsMisc], rfl, beq_iff_eq.mpr (layXNN_class _ x nn)⟩

theorem skipNeImm (x : Reg) (nn : Byte) : Statement (.skipNeImm x nn) :=
  ⟨⟨"skip-ne-imm", 0x4000, 0xF000⟩, by simp [opcodeRows, opcodeRowsLow, opcodeRowsAlu, opcodeRowsHigh,
    opcodeRowsMisc], rfl, beq_iff_eq.mpr (layXNN_class _ x nn)⟩

theorem skipEqReg (x y : Reg) : Statement (.skipEqReg x y) :=
  ⟨⟨"skip-eq-reg", 0x5000, 0xF00F⟩, by simp [opcodeRows, opcodeRowsLow, opcodeRowsAlu, opcodeRowsHigh,
    opcodeRowsMisc], rfl, beq_iff_eq.mpr (layXYN_selector _ x y _)⟩

theorem loadImm (x : Reg) (nn : Byte) : Statement (.loadImm x nn) :=
  ⟨⟨"load-imm", 0x6000, 0xF000⟩, by simp [opcodeRows, opcodeRowsLow, opcodeRowsAlu, opcodeRowsHigh,
    opcodeRowsMisc], rfl, beq_iff_eq.mpr (layXNN_class _ x nn)⟩

theorem addImm (x : Reg) (nn : Byte) : Statement (.addImm x nn) :=
  ⟨⟨"add-imm", 0x7000, 0xF000⟩, by simp [opcodeRows, opcodeRowsLow, opcodeRowsAlu, opcodeRowsHigh,
    opcodeRowsMisc], rfl, beq_iff_eq.mpr (layXNN_class _ x nn)⟩

theorem copy (x y : Reg) : Statement (.copy x y) :=
  ⟨⟨"copy", 0x8000, 0xF00F⟩, by simp [opcodeRows, opcodeRowsLow, opcodeRowsAlu, opcodeRowsHigh,
    opcodeRowsMisc], rfl, beq_iff_eq.mpr (layXYN_selector _ x y _)⟩

theorem or (x y : Reg) : Statement (.or x y) :=
  ⟨⟨"or", 0x8001, 0xF00F⟩, by simp [opcodeRows, opcodeRowsLow, opcodeRowsAlu, opcodeRowsHigh,
    opcodeRowsMisc], rfl, beq_iff_eq.mpr (layXYN_selector _ x y _)⟩

theorem and (x y : Reg) : Statement (.and x y) :=
  ⟨⟨"and", 0x8002, 0xF00F⟩, by simp [opcodeRows, opcodeRowsLow, opcodeRowsAlu, opcodeRowsHigh,
    opcodeRowsMisc], rfl, beq_iff_eq.mpr (layXYN_selector _ x y _)⟩

theorem xor (x y : Reg) : Statement (.xor x y) :=
  ⟨⟨"xor", 0x8003, 0xF00F⟩, by simp [opcodeRows, opcodeRowsLow, opcodeRowsAlu, opcodeRowsHigh,
    opcodeRowsMisc], rfl, beq_iff_eq.mpr (layXYN_selector _ x y _)⟩

theorem add (x y : Reg) : Statement (.add x y) :=
  ⟨⟨"add", 0x8004, 0xF00F⟩, by simp [opcodeRows, opcodeRowsLow, opcodeRowsAlu, opcodeRowsHigh,
    opcodeRowsMisc], rfl, beq_iff_eq.mpr (layXYN_selector _ x y _)⟩

theorem sub (x y : Reg) : Statement (.sub x y) :=
  ⟨⟨"sub", 0x8005, 0xF00F⟩, by simp [opcodeRows, opcodeRowsLow, opcodeRowsAlu, opcodeRowsHigh,
    opcodeRowsMisc], rfl, beq_iff_eq.mpr (layXYN_selector _ x y _)⟩

theorem shr (x y : Reg) : Statement (.shr x y) :=
  ⟨⟨"shr", 0x8006, 0xF00F⟩, by simp [opcodeRows, opcodeRowsLow, opcodeRowsAlu, opcodeRowsHigh,
    opcodeRowsMisc], rfl, beq_iff_eq.mpr (layXYN_selector _ x y _)⟩

theorem subn (x y : Reg) : Statement (.subn x y) :=
  ⟨⟨"subn", 0x8007, 0xF00F⟩, by simp [opcodeRows, opcodeRowsLow, opcodeRowsAlu, opcodeRowsHigh,
    opcodeRowsMisc], rfl, beq_iff_eq.mpr (layXYN_selector _ x y _)⟩

theorem shl (x y : Reg) : Statement (.shl x y) :=
  ⟨⟨"shl", 0x800E, 0xF00F⟩, by simp [opcodeRows, opcodeRowsLow, opcodeRowsAlu, opcodeRowsHigh,
    opcodeRowsMisc], rfl, beq_iff_eq.mpr (layXYN_selector _ x y _)⟩

theorem skipNeReg (x y : Reg) : Statement (.skipNeReg x y) :=
  ⟨⟨"skip-ne-reg", 0x9000, 0xF00F⟩, by simp [opcodeRows, opcodeRowsLow, opcodeRowsAlu, opcodeRowsHigh,
    opcodeRowsMisc], rfl, beq_iff_eq.mpr (layXYN_selector _ x y _)⟩

theorem loadI (nnn : BitVec 12) : Statement (.loadI nnn) :=
  ⟨⟨"load-I", 0xA000, 0xF000⟩, by simp [opcodeRows, opcodeRowsLow, opcodeRowsAlu, opcodeRowsHigh,
    opcodeRowsMisc], rfl, beq_iff_eq.mpr (layNNN_class _ nnn)⟩

theorem jumpOffset (nnn : BitVec 12) : Statement (.jumpOffset nnn) :=
  ⟨⟨"jump-offset", 0xB000, 0xF000⟩, by simp [opcodeRows, opcodeRowsLow, opcodeRowsAlu, opcodeRowsHigh,
    opcodeRowsMisc], rfl, beq_iff_eq.mpr (layNNN_class _ nnn)⟩

theorem rand (x : Reg) (nn : Byte) : Statement (.rand x nn) :=
  ⟨⟨"rand", 0xC000, 0xF000⟩, by simp [opcodeRows, opcodeRowsLow, opcodeRowsAlu, opcodeRowsHigh,
    opcodeRowsMisc], rfl, beq_iff_eq.mpr (layXNN_class _ x nn)⟩

theorem draw (x y : Reg) (n : BitVec 4) : Statement (.draw x y n) :=
  ⟨⟨"draw", 0xD000, 0xF000⟩, by simp [opcodeRows, opcodeRowsLow, opcodeRowsAlu, opcodeRowsHigh,
    opcodeRowsMisc], rfl, beq_iff_eq.mpr (layXYN_class _ x y n)⟩

theorem skipKeyPressed (x : Reg) : Statement (.skipKeyPressed x) :=
  ⟨⟨"skip-key-pressed", 0xE09E, 0xF0FF⟩, by simp [opcodeRows, opcodeRowsLow, opcodeRowsAlu, opcodeRowsHigh,
    opcodeRowsMisc], rfl, beq_iff_eq.mpr (layXNN_selector _ x _)⟩

theorem skipKeyNotPressed (x : Reg) : Statement (.skipKeyNotPressed x) :=
  ⟨⟨"skip-key-not-pressed", 0xE0A1, 0xF0FF⟩, by simp [opcodeRows, opcodeRowsLow, opcodeRowsAlu, opcodeRowsHigh,
    opcodeRowsMisc], rfl, beq_iff_eq.mpr (layXNN_selector _ x _)⟩

theorem getDelay (x : Reg) : Statement (.getDelay x) :=
  ⟨⟨"get-delay", 0xF007, 0xF0FF⟩, by simp [opcodeRows, opcodeRowsLow, opcodeRowsAlu, opcodeRowsHigh,
    opcodeRowsMisc], rfl, beq_iff_eq.mpr (layXNN_selector _ x _)⟩

theorem waitKey (x : Reg) : Statement (.waitKey x) :=
  ⟨⟨"wait-key", 0xF00A, 0xF0FF⟩, by simp [opcodeRows, opcodeRowsLow, opcodeRowsAlu, opcodeRowsHigh,
    opcodeRowsMisc], rfl, beq_iff_eq.mpr (layXNN_selector _ x _)⟩

theorem setDelay (x : Reg) : Statement (.setDelay x) :=
  ⟨⟨"set-delay", 0xF015, 0xF0FF⟩, by simp [opcodeRows, opcodeRowsLow, opcodeRowsAlu, opcodeRowsHigh,
    opcodeRowsMisc], rfl, beq_iff_eq.mpr (layXNN_selector _ x _)⟩

theorem setSound (x : Reg) : Statement (.setSound x) :=
  ⟨⟨"set-sound", 0xF018, 0xF0FF⟩, by simp [opcodeRows, opcodeRowsLow, opcodeRowsAlu, opcodeRowsHigh,
    opcodeRowsMisc], rfl, beq_iff_eq.mpr (layXNN_selector _ x _)⟩

theorem addI (x : Reg) : Statement (.addI x) :=
  ⟨⟨"add-I", 0xF01E, 0xF0FF⟩, by simp [opcodeRows, opcodeRowsLow, opcodeRowsAlu, opcodeRowsHigh,
    opcodeRowsMisc], rfl, beq_iff_eq.mpr (layXNN_selector _ x _)⟩

theorem fontAddr (x : Reg) : Statement (.fontAddr x) :=
  ⟨⟨"font-addr", 0xF029, 0xF0FF⟩, by simp [opcodeRows, opcodeRowsLow, opcodeRowsAlu, opcodeRowsHigh,
    opcodeRowsMisc], rfl, beq_iff_eq.mpr (layXNN_selector _ x _)⟩

theorem storeBCD (x : Reg) : Statement (.storeBCD x) :=
  ⟨⟨"store-BCD", 0xF033, 0xF0FF⟩, by simp [opcodeRows, opcodeRowsLow, opcodeRowsAlu, opcodeRowsHigh,
    opcodeRowsMisc], rfl, beq_iff_eq.mpr (layXNN_selector _ x _)⟩

theorem regDump (x : Reg) : Statement (.regDump x) :=
  ⟨⟨"reg-dump", 0xF055, 0xF0FF⟩, by simp [opcodeRows, opcodeRowsLow, opcodeRowsAlu, opcodeRowsHigh,
    opcodeRowsMisc], rfl, beq_iff_eq.mpr (layXNN_selector _ x _)⟩

theorem regLoad (x : Reg) : Statement (.regLoad x) :=
  ⟨⟨"reg-load", 0xF065, 0xF0FF⟩, by simp [opcodeRows, opcodeRowsLow, opcodeRowsAlu, opcodeRowsHigh,
    opcodeRowsMisc], rfl, beq_iff_eq.mpr (layXNN_selector _ x _)⟩

end Sys2Proof.Laws.EncodingRow
end

