-- ==== Sys2Proof/Laws/Sprite.lean ====
section
/-! SUPPORT. The sprite render engine (spec/44_display.md R181, R182): the columns of a row are distinct pixels and
so are the rows of a sprite, so each pixel is XORed with the one bit that maps to it, and a collision is
recorded exactly when a bit of 1 meets a pixel that was on before. -/

namespace Sys2Proof.Machine

open scoped Classical

/-- The columns of at most eight bits are distinct (R182 (a)). -/
theorem column_ne {ox : Byte} {c d : Nat} (hc : c < 8) (hd : d < 8) (h : d ≠ c) :
    column ox d ≠ column ox c := by
  intro e
  have := congrArg Fin.val e
  simp only [column] at this
  omega

/-- The rows of a sprite are distinct (R182 (a)). -/
theorem line_ne {oy : Byte} {q r : Nat} (hq : q < 32) (hr : r < 32) (h : q ≠ r) : line oy q ≠ line oy r := by
  intro e
  have := congrArg Fin.val e
  simp only [line] at this
  omega

/-- Columns `c` to `c + n - 1` of one sprite row: what they do to every pixel. -/
theorem Canvas.pixel_plotColumns (row ox : Byte) (y : Fin 32) (n c : Nat) (hc : c + n ≤ 8) (k : Canvas)
    (x' : Fin 64) (y' : Fin 32) :
    pixel (k.plotColumns row ox y c n).fb x' y' =
      (pixel k.fb x' y' ^^
        decide (y' = y ∧ ∃ d, c ≤ d ∧ d < c + n ∧ spriteBit row d = true ∧ column ox d = x')) := by
  induction n generalizing c k with
  | zero =>
    have : ¬(y' = y ∧ ∃ d, c ≤ d ∧ d < c + 0 ∧ spriteBit row d = true ∧ column ox d = x') := by
      rintro ⟨_, d, h1, h2, _⟩; omega
    rw [decide_eq_false this, Bool.xor_false, Canvas.plotColumns]
  | succ n ih =>
    rw [Canvas.plotColumns, ih (c + 1) (by omega)]
    by_cases hp : x' = column ox c ∧ y' = y
    · obtain ⟨rfl, rfl⟩ := hp
      have rest : ¬(y' = y' ∧ ∃ d, c + 1 ≤ d ∧ d < c + 1 + n ∧ spriteBit row d = true ∧
          column ox d = column ox c) := by
        rintro ⟨_, d, h1, h2, _, h⟩; exact column_ne (by omega) (by omega) (by omega) h
      have here : (y' = y' ∧ ∃ d, c ≤ d ∧ d < c + (n + 1) ∧ spriteBit row d = true ∧
          column ox d = column ox c) ↔ spriteBit row c = true := by
        refine ⟨?_, fun h => ⟨rfl, c, le_refl _, by omega, h, rfl⟩⟩
        rintro ⟨_, d, h1, h2, hb, h⟩
        by_cases hd : d = c
        · exact hd ▸ hb
        · exact absurd h (column_ne (by omega) (by omega) hd)
      rw [(k.plot_pixel_same _ _ _).1, decide_eq_false rest, Bool.xor_false]
      exact congrArg _ (Bool.eq_iff_iff.mpr (decide_eq_true_iff.trans here)).symm
    · rw [k.plot_pixel_ne _ (by tauto)]
      congr 1
      rw [decide_eq_decide]
      constructor
      · rintro ⟨h, d, h1, h2, hb, h3⟩; exact ⟨h, d, by omega, by omega, hb, h3⟩
      · rintro ⟨h, d, h1, h2, hb, h3⟩
        refine ⟨h, d, ?_, by omega, hb, h3⟩
        by_cases hd : d = c
        · subst hd; exact absurd ⟨h3.symm, h⟩ hp
        · omega

/-- Columns `c` to `c + n - 1` of one sprite row: when they record a collision. -/
theorem Canvas.hit_plotColumns (row ox : Byte) (y : Fin 32) (n c : Nat) (hc : c + n ≤ 8) (k : Canvas) :
    (k.plotColumns row ox y c n).hit = true ↔ k.hit = true ∨
      ∃ d, c ≤ d ∧ d < c + n ∧ spriteBit row d = true ∧ pixel k.fb (column ox d) y = true := by
  induction n generalizing c k with
  | zero =>
    refine ⟨.inl, ?_⟩
    rintro (h | ⟨d, h1, h2, _⟩)
    · exact h
    · omega
  | succ n ih =>
    have before : ∀ d, c + 1 ≤ d → d < c + 1 + n →
        pixel (k.plot (spriteBit row c) (column ox c) y).fb (column ox d) y = pixel k.fb (column ox d) y :=
      fun d h1 h2 => k.plot_pixel_ne _ (.inl (column_ne (by omega) (by omega) (by omega)))
    rw [Canvas.plotColumns, ih (c + 1) (by omega), (k.plot_pixel_same _ _ _).2]
    constructor
    · rintro (h | ⟨d, h1, h2, h3, h4⟩)
      · rcases (by simpa using h : k.hit = true ∨ _) with h | ⟨h, h'⟩
        · exact .inl h
        · exact .inr ⟨c, le_refl _, by omega, h, h'⟩
      · exact .inr ⟨d, by omega, by omega, h3, by rw [← before d h1 h2]; exact h4⟩
    · rintro (h | ⟨d, h1, h2, h3, h4⟩)
      · exact .inl (by simp [h])
      · by_cases hd : d = c
        · subst hd; exact .inl (by simp [h3, h4])
        · exact .inr ⟨d, by omega, by omega, h3, by rw [before d (by omega) (by omega)]; exact h4⟩

/-- The rows of a sprite from row `r` on: what they do to every pixel (R182 (d)). -/
theorem Canvas.pixel_plotRows (ox oy : Byte) (bs : List Byte) (r : Nat) (hr : r + bs.length ≤ 32) (k : Canvas)
    (x' : Fin 64) (y' : Fin 32) :
    pixel (k.plotRows ox oy r bs).fb x' y' =
      (pixel k.fb x' y' ^^ decide (∃ e c, ∃ h : e < bs.length, line oy (r + e) = y' ∧ c < 8 ∧
        spriteBit bs[e] c = true ∧ column ox c = x')) := by
  induction bs generalizing r k with
  | nil => simp [Canvas.plotRows]
  | cons b bs ih =>
    simp only [List.length_cons] at hr
    have later : ∀ e, e < bs.length → line oy (r + 1 + e) ≠ line oy r :=
      fun e h => line_ne (by omega) (by omega) (by omega)
    rw [Canvas.plotRows, ih (r + 1) (by omega), Canvas.plotRow, Canvas.pixel_plotColumns _ _ _ 8 0 (by omega)]
    by_cases hy : y' = line oy r
    · subst hy
      have rest : ¬∃ e c, ∃ h : e < bs.length, line oy (r + 1 + e) = line oy r ∧ c < 8 ∧
          spriteBit bs[e] c = true ∧ column ox c = x' := by
        rintro ⟨e, c, h, h1, _⟩; exact later e h h1
      rw [decide_eq_false rest, Bool.xor_false]
      congr 1
      rw [decide_eq_decide]
      constructor
      · rintro ⟨_, d, _, h2, h3, h4⟩; exact ⟨0, d, by simp, rfl, by omega, h3, h4⟩
      · rintro ⟨e, d, h, h1, h2, h3, h4⟩
        cases e with
        | zero => exact ⟨rfl, d, by omega, by omega, h3, h4⟩
        | succ e => exact absurd (by rw [← h1]; congr 1; omega) (later e (by simpa using h))
    · have here : ¬(y' = line oy r ∧ ∃ d, 0 ≤ d ∧ d < 0 + 8 ∧ spriteBit b d = true ∧ column ox d = x') :=
        fun h => hy h.1
      rw [decide_eq_false here, Bool.xor_false]
      congr 1
      rw [decide_eq_decide]
      constructor
      · rintro ⟨e, d, h, h1, h2, h3, h4⟩
        exact ⟨e + 1, d, by simpa using h, by rw [← h1]; congr 1; omega, h2, h3, h4⟩
      · rintro ⟨e, d, h, h1, h2, h3, h4⟩
        cases e with
        | zero => exact absurd h1.symm hy
        | succ e => exact ⟨e, d, by simpa using h, by rw [← h1]; congr 1; omega, h2, h3, h4⟩

/-- The rows of a sprite from row `r` on: when they record a collision, in terms of the pixels from before the
instruction (R182 (a), R183). -/
theorem Canvas.hit_plotRows (ox oy : Byte) (bs : List Byte) (r : Nat) (hr : r + bs.length ≤ 32) (k : Canvas) :
    (k.plotRows ox oy r bs).hit = true ↔ k.hit = true ∨ ∃ e c, ∃ h : e < bs.length, c < 8 ∧
      spriteBit bs[e] c = true ∧ pixel k.fb (column ox c) (line oy (r + e)) = true := by
  induction bs generalizing r k with
  | nil => simp [Canvas.plotRows]
  | cons b bs ih =>
    simp only [List.length_cons] at hr
    have before : ∀ e c, e < bs.length →
        pixel (k.plotColumns b ox (line oy r) 0 8).fb (column ox c) (line oy (r + 1 + e)) =
          pixel k.fb (column ox c) (line oy (r + 1 + e)) := by
      intro e c h
      rw [Canvas.pixel_plotColumns _ _ _ 8 0 (by omega), decide_eq_false, Bool.xor_false]
      rintro ⟨h', _⟩
      exact line_ne (by omega) (by omega) (by omega) h'
    rw [Canvas.plotRows, ih (r + 1) (by omega), Canvas.plotRow, Canvas.hit_plotColumns _ _ _ 8 0 (by omega)]
    constructor
    · rintro ((h | ⟨d, _, h2, h3, h4⟩) | ⟨e, c, h, h2, h3, h4⟩)
      · exact .inl h
      · exact .inr ⟨0, d, by simp, by omega, h3, h4⟩
      · refine .inr ⟨e + 1, c, by simpa using h, h2, h3, ?_⟩
        rw [before e c h] at h4; rw [← h4]; congr 2; omega
    · rintro (h | ⟨e, c, h, h2, h3, h4⟩)
      · exact .inl (.inl h)
      · cases e with
        | zero => exact .inl (.inr ⟨c, by omega, by omega, h3, h4⟩)
        | succ e =>
          have h' : e < bs.length := by simpa using h
          refine .inr ⟨e, c, h', h2, h3, ?_⟩
          rw [before e c h', ← h4]; congr 2; omega

end Sys2Proof.Machine
end

