-- ==== Sys2Proof/Laws/Step.lean ====
section
/-! SUPPORT. What a step can do, said once: which invocation it makes, and the cases of a Step. -/

namespace Sys2Proof.Machine

/-! ## The invocation -/

/-- With nothing listed, the step is a Step. -/
theorem step_of_driver_nil {s : State} (h : s.driver = []) : step s = coreStep s.markStepped := by
  simp [step, invokeNext, h, invoke]

/-- With something listed, the step is that invocation, taken off the list. -/
theorem step_of_driver_cons {s : State} {m : Invocation} {rest : List Invocation} (h : s.driver = m :: rest) :
    step s = invoke m (s.setDriver rest) := by
  simp [step, invokeNext, h]

/-- R64: everything a Load can do. -/
theorem load_cases (image : List Byte) (s : State) :
    (s.stepped = true ∧ load image s = .refused .loadAfterFirstStep) ∨
    (s.stepped = false ∧ maxImage < image.length ∧ load image s = .next (s.setFault (some .loadFault))) ∨
    (s.stepped = false ∧ image.length ≤ maxImage ∧
      load image s = .next (s.setMem (s.mem.writeAll s.config 0x200 image))) := by
  unfold load
  by_cases h : s.stepped = true
  · exact .inl ⟨h, by simp [h]⟩
  · have h' : s.stepped = false := by simpa using h
    by_cases hl : image.length > maxImage
    · exact .inr (.inl ⟨h', hl, by simp [h', hl, raiseFault]⟩)
    · exact .inr (.inr ⟨h', by omega, by simp [h', hl]⟩)

/-! ## The Step -/

/-- R107: a HALTED core. -/
theorem coreStep_halted {s : State} (h : s.fault ≠ none) : coreStep s = .next s := by
  unfold coreStep
  split
  · rfl
  · contradiction

/-- R100: everything a Step of a RUNNING core can do: a fault of the fetch, a fault of the decoder, or the
decoded instruction followed by COMMIT. -/
theorem coreStep_running {s : State} (h : s.fault = none) :
    (4094 < s.pc.toNat ∧ coreStep s = .next (s.setFault (some .addressFault))) ∨
    (s.pc.toNat ≤ 4094 ∧ ∃ w, s.fetch = .ok w ∧ w = s.byteAt s.pc.toNat ++ s.byteAt (s.pc.toNat + 1) ∧
      ((∃ r, decode w = .rejected r ∧ coreStep s = .next (s.setFault (some .decodeFault))) ∨
       (∃ i, decode w = .instr i ∧ coreStep s = commitOutcome (exec i s)))) := by
  have hs : coreStep s = runningStep s := by simp [coreStep, h]
  rcases s.fetch_cases with ⟨hp, hf⟩ | ⟨hp, hf⟩
  · refine .inr ⟨hp, _, hf, rfl, ?_⟩
    cases hd : decode (s.byteAt s.pc.toNat ++ s.byteAt (s.pc.toNat + 1)) with
    | rejected r => exact .inl ⟨r, rfl, by simp [hs, runningStep, hf, runOpcode, hd, raiseFault]⟩
    | instr i => exact .inr ⟨i, rfl, by simp [hs, runningStep, hf, runOpcode, hd]⟩
  · exact .inl ⟨hp, by simp [hs, runningStep, hf, raiseFault]⟩

/-- COMMIT answers a next state only after one. -/
theorem commitOutcome_next {o : Host.Outcome State Fault Refusal} {t : State} (h : commitOutcome o = .next t) :
    ∃ u, o = .next u ∧ t = u.commit := by
  cases o with
  | next u => exact ⟨u, rfl, by simpa [commitOutcome] using h.symm⟩
  | fault f => simp [commitOutcome] at h
  | refused r => simp [commitOutcome] at h

end Sys2Proof.Machine
end

