-- ==== Sys2Proof/Tests/Slice0.lean ====
section
/-! SUPPORT. Tests of the model. The expected results are those of spec/95_test_vectors.md (a comment names the
vector: S and Q of part 1, the table and row of part 2) or of the example of the instruction's rule. The last
section shows, for each statement with hypotheses, a state and operands that meet them all. -/

namespace Sys2Proof.Tests

open Machine Statements

/-! ## Small states -/

/-- The state an outcome answers. -/
def after : Host.Outcome State Fault Refusal → State
  | .next t => t
  | _ => State.reset

/-- The reset state with some registers. -/
def regs (vs : List (Reg × Byte)) : State := vs.foldl (fun s p => s.setReg p.1 p.2) State.reset

/-- Memory with consecutive bytes from an address. -/
def withBytes (s : State) (a : Nat) (bs : List Byte) : State := s.setMem (s.mem.writeAll s.config a bs)

/-- One Step of the opcode at the PC of the state. -/
def run (s : State) (w : Nat) : State := after (step (s.withFetchWord 16 w))

/-- The reset state with its framebuffer on at one pixel. -/
def lit (x : Fin 64) (y : Fin 32) : State := State.reset.setFb (togglePixel blankScreen x y)

/-! ## Well-formedness: a term that each check refuses -/

theorem smoke_class0_ill_formed : wellFormedOpcode 0x0000 = false ∧ wellFormedOpcode 0x0120 = false := by decide
theorem smoke_class5_ill_formed : wellFormedOpcode 0x5011 = false := by decide
theorem smoke_class8_ill_formed : wellFormedOpcode 0x8018 = false ∧ wellFormedOpcode 0x801F = false := by decide
theorem smoke_class9_ill_formed : wellFormedOpcode 0x9121 = false := by decide
theorem smoke_classE_ill_formed : wellFormedOpcode 0xE09F = false ∧ wellFormedOpcode 0xE000 = false := by decide
theorem smoke_classF_ill_formed : wellFormedOpcode 0xF000 = false ∧ wellFormedOpcode 0xFFFF = false := by decide
theorem smoke_opcode_well_formed : wellFormedOpcode 0x8FF6 = true := by decide
theorem smoke_long_image_ill_formed : wellFormedImage (List.replicate 3585 0) = false := by
  rw [wellFormedImage, List.length_replicate]; rfl
theorem smoke_full_image_well_formed : wellFormedImage (List.replicate 3584 0) = true := by
  rw [wellFormedImage, List.length_replicate]; rfl

/-- R80: the table has the 34 rows, and a word of each class selects one. -/
theorem test_table_has_34_rows : opcodeRows.length = 34 := by decide

/-! ## Decoding: a word for each constructor, written from its pattern in R80 -/

theorem decode_00E0 : decode 0x00E0 = .instr .clearScreen := by decide
theorem decode_00EE : decode 0x00EE = .instr .ret := by decide
theorem decode_1204 : decode 0x1204 = .instr (.jump 0x204) := by decide
theorem decode_2210 : decode 0x2210 = .instr (.call 0x210) := by decide
theorem decode_3A7B : decode 0x3A7B = .instr (.skipEqImm 0xA 0x7B) := by decide
theorem decode_4A7B : decode 0x4A7B = .instr (.skipNeImm 0xA 0x7B) := by decide
theorem decode_51E0 : decode 0x51E0 = .instr (.skipEqReg 1 0xE) := by decide
theorem decode_6005 : decode 0x6005 = .instr (.loadImm 0 5) := by decide
theorem decode_700A : decode 0x700A = .instr (.addImm 0 10) := by decide
theorem decode_81E0 : decode 0x81E0 = .instr (.copy 1 0xE) := by decide
theorem decode_81E1 : decode 0x81E1 = .instr (.or 1 0xE) := by decide
theorem decode_81E2 : decode 0x81E2 = .instr (.and 1 0xE) := by decide
theorem decode_81E3 : decode 0x81E3 = .instr (.xor 1 0xE) := by decide
theorem decode_8014 : decode 0x8014 = .instr (.add 0 1) := by decide
theorem decode_81E5 : decode 0x81E5 = .instr (.sub 1 0xE) := by decide
theorem decode_8FF6 : decode 0x8FF6 = .instr (.shr 0xF 0xF) := by decide
theorem decode_81E7 : decode 0x81E7 = .instr (.subn 1 0xE) := by decide
theorem decode_8AAE : decode 0x8AAE = .instr (.shl 0xA 0xA) := by decide
theorem decode_91E0 : decode 0x91E0 = .instr (.skipNeReg 1 0xE) := by decide
theorem decode_A20C : decode 0xA20C = .instr (.loadI 0x20C) := by decide
theorem decode_BFFF : decode 0xBFFF = .instr (.jumpOffset 0xFFF) := by decide
theorem decode_C00F : decode 0xC00F = .instr (.rand 0 0x0F) := by decide
theorem decode_D122 : decode 0xD122 = .instr (.draw 1 2 2) := by decide
theorem decode_E59E : decode 0xE59E = .instr (.skipKeyPressed 5) := by decide
theorem decode_E5A1 : decode 0xE5A1 = .instr (.skipKeyNotPressed 5) := by decide
theorem decode_F407 : decode 0xF407 = .instr (.getDelay 4) := by decide
theorem decode_F30A : decode 0xF30A = .instr (.waitKey 3) := by decide
theorem decode_F415 : decode 0xF415 = .instr (.setDelay 4) := by decide
theorem decode_F418 : decode 0xF418 = .instr (.setSound 4) := by decide
theorem decode_F21E : decode 0xF21E = .instr (.addI 2) := by decide
theorem decode_F029 : decode 0xF029 = .instr (.fontAddr 0) := by decide
theorem decode_F133 : decode 0xF133 = .instr (.storeBCD 1) := by decide
theorem decode_F255 : decode 0xF255 = .instr (.regDump 2) := by decide
theorem decode_F265 : decode 0xF265 = .instr (.regLoad 2) := by decide

/-- Vectors 2.6: 1, 2 and 4; each is rejected by the name of its class. -/
theorem decode_illegal : decode 0x0000 = .rejected .class0 ∧ decode 0x00E1 = .rejected .class0 ∧
    decode 0x5011 = .rejected .class5 ∧ decode 0x801F = .rejected .class8 ∧ decode 0x9011 = .rejected .class9 ∧
    decode 0xE09F = .rejected .classE ∧ decode 0xFFFF = .rejected .classF ∧
    decodeBytes [0x60] = .rejected .truncated := by decide

/-- R91: `draw V1, V2, 2` = 0xD122, `shr V3` = 0x8306 with Y assembled as 0. -/
theorem test_encode : encode (.draw 1 2 2) = 0xD122 ∧ encode (.shr 3 0) = 0x8306 ∧
    encodeBytes (.loadImm 0 5) = [0x60, 0x05] := by decide

theorem test_decodeTableWord : decodeTableWord 16 0xF255 = some (.regDump 2) ∧
    decodeTableWord 16 0x5011 = none := by decide

/-! ## Control flow -/

/-- 2.1: 3. -/
theorem test_jump : (run State.reset 0x1FFF).pc = 0xFFF := by decide
/-- 2.1: 6. -/
theorem test_call : (run State.reset 0x2ABC).pc = 0xABC ∧ (run State.reset 0x2ABC).sp = 1 ∧
    (run State.reset 0x2ABC).stack[0] = 0x202 := by decide
/-- 2.1: 8. -/
theorem test_call_overflow : (run (State.reset.setStack 16 State.reset.stack) 0x2400).fault = some .stackOverflow ∧
    (run (State.reset.setStack 16 State.reset.stack) 0x2400).pc = 0x200 := by decide
/-- 2.1: 11. -/
theorem test_return :
    (run (State.reset.setStack 2 ((State.reset.stack.set 0 0x202).set 1 0x310)) 0x00EE).pc = 0x310 := by decide
/-- 2.1: 10. -/
theorem test_return_underflow : (run State.reset 0x00EE).fault = some .stackUnderflow := by decide
/-- 2.1: 13, 14 (at 0x200). -/
theorem test_skipEqImm : (run State.reset 0x3100).pc = 0x204 ∧ (run (regs [(1, 1)]) 0x3100).pc = 0x202 := by decide
/-- 2.1: 15, 16 (at 0x200). -/
theorem test_skipNeImm : (run (regs [(2, 7)]) 0x4207).pc = 0x202 ∧
    (run (regs [(2, 8)]) 0x4207).pc = 0x204 := by decide
/-- 2.1: 17, 18. -/
theorem test_skipEqReg : (run (regs [(0, 3), (1, 3)]) 0x5010).pc = 0x204 ∧
    (run (regs [(0, 3), (1, 4)]) 0x5010).pc = 0x202 := by decide
/-- 2.1: 21, 22. -/
theorem test_skipNeReg : (run (regs [(0, 3), (1, 4)]) 0x9010).pc = 0x204 ∧
    (run (regs [(4, 0x77)]) 0x9440).pc = 0x202 := by decide
/-- 2.1: 25, 26. -/
theorem test_jumpOffset : (run (regs [(0, 0xFF)]) 0xBFFF).pc = 0x10FE ∧
    (run (regs [(0, 0x10), (3, 0x99)]) 0xB300).pc = 0x310 := by decide

/-! ## Register and ALU -/

/-- 2.2: 1, 2. -/
theorem test_loadImm : (run State.reset 0x6005).reg 0 = 5 ∧ (run (regs [(15, 1)]) 0x6F00).reg 15 = 0 := by decide
/-- 2.2: 4, 6. -/
theorem test_addImm : (run (regs [(0, 0xFF)]) 0x7001).reg 0 = 0 ∧ (run (regs [(0, 0xFF)]) 0x7001).reg 15 = 0 ∧
    (run (regs [(15, 0xFE)]) 0x7F03).reg 15 = 1 := by decide
/-- 2.2: 7. -/
theorem test_copy : (run (regs [(1, 0x2A)]) 0x8010).reg 0 = 0x2A := by decide
/-- 2.2: 8. -/
theorem test_or : (run (regs [(0, 0xF0), (1, 0x0F), (15, 1)]) 0x8011).reg 0 = 0xFF ∧
    (run (regs [(0, 0xF0), (1, 0x0F), (15, 1)]) 0x8011).reg 15 = 1 := by decide
/-- 2.2: 9. -/
theorem test_and : (run (regs [(0, 0xF0), (1, 0x3C)]) 0x8012).reg 0 = 0x30 := by decide
/-- 2.2: 10. -/
theorem test_xor : (run (regs [(0, 0xF0), (1, 0x3C)]) 0x8013).reg 0 = 0xCC := by decide
/-- 2.2: 13, 14. -/
theorem test_add_polarity : (run (regs [(0, 0xC8), (1, 0x37)]) 0x8014).reg 15 = 1 ∧
    (run (regs [(0, 0xC8), (1, 0x38)]) 0x8014).reg 15 = 0 ∧
    (run (regs [(0, 0xC8), (1, 0x38)]) 0x8014).reg 0 = 0 := by decide
/-- 2.2: 20, 21. -/
theorem test_add_vf : (run (regs [(15, 0xFF), (1, 2)]) 0x8F14).reg 15 = 1 ∧
    (run (regs [(3, 5), (15, 1)]) 0x83F4).reg 3 = 6 ∧ (run (regs [(3, 5), (15, 1)]) 0x83F4).reg 15 = 1 := by decide
/-- 2.2: 26, 27. -/
theorem test_sub : (run (regs [(0, 7), (1, 7)]) 0x8015).reg 15 = 1 ∧ (run (regs [(1, 1)]) 0x8015).reg 0 = 0xFF ∧
    (run (regs [(1, 1)]) 0x8015).reg 15 = 0 := by decide
/-- 2.2: 30, 32. -/
theorem test_sub_vf : (run (regs [(15, 4), (1, 9)]) 0x8F15).reg 15 = 0xFB ∧
    (run (regs [(15, 1)]) 0x83F5).reg 3 = 0xFF ∧ (run (regs [(15, 1)]) 0x83F5).reg 15 = 0 := by decide
/-- 2.2: 40, 43. -/
theorem test_shr : (run (regs [(3, 0xFF), (7, 0x12)]) 0x8376).reg 3 = 0x7F ∧
    (run (regs [(3, 0xFF), (7, 0x12)]) 0x8376).reg 15 = 1 ∧ (run (regs [(15, 7)]) 0x8F06).reg 15 = 3 := by decide
/-- 2.2: 34, 37. -/
theorem test_subn : (run (regs [(0, 10), (1, 3)]) 0x8017).reg 0 = 0xF9 ∧
    (run (regs [(3, 5), (15, 1)]) 0x83F7).reg 3 = 0xFC ∧ (run (regs [(3, 5), (15, 1)]) 0x83F7).reg 15 = 0 := by decide
/-- 2.2: 44, 45. -/
theorem test_shl : (run (regs [(3, 0x81)]) 0x830E).reg 3 = 2 ∧ (run (regs [(3, 0x81)]) 0x830E).reg 15 = 1 ∧
    (run (regs [(3, 0x40)]) 0x830E).reg 15 = 0 := by decide
/-- R153: the drawn byte under the mask. -/
theorem test_rand : (after (execRand 0 0x0F State.reset)).reg 0 = (Config.freeRandom 0 &&& 0x0F) := rfl

/-! ## Index and memory -/

/-- 2.3: 2. -/
theorem test_loadI : (run State.reset 0xAFFF).I = 0xFFF := by decide
/-- 2.3: 4, 5. -/
theorem test_addI : (run ((regs [(2, 1)]).setI 0xFFF) 0xF21E).I = 0 ∧
    (run ((regs [(2, 0xFF)]).setI 0xF80) 0xF21E).I = 0x07F := by decide
/-- 2.3: 8, 9. -/
theorem test_fontAddr : (run (regs [(0, 0x0F)]) 0xF029).I = 0x04B ∧
    (run (regs [(0, 0x1A)]) 0xF029).I = 0x032 := by decide
/-- 2.3: 10, with FONT_BASE = 0x050. -/
theorem test_fontAddr_base :
    (run ((State.resetWith ⟨0x50, defaultFont⟩).setReg 0 7) 0xF029).I = 0x073 := by decide
/-- 2.3: 12. -/
theorem test_storeBCD : (run ((regs [(0, 0xFF)]).setI 0x300) 0xF033).mem.readAll Config.default 0x300 3 =
    [2, 5, 5] := by decide
/-- 2.3: 16. -/
theorem test_storeBCD_fault : (run ((regs [(0, 9)]).setI 0xFFE) 0xF033).fault = some .addressFault ∧
    (run ((regs [(0, 9)]).setI 0xFFE) 0xF033).byteAt 0xFFF = 0 := by decide
/-- 2.3: 17. -/
theorem test_regDump : (run ((regs [(0, 0x11), (1, 0x22), (2, 0x33), (3, 0x44)]).setI 0x400) 0xF255).mem.readAll
    Config.default 0x400 4 = [0x11, 0x22, 0x33, 0] := by decide
/-- 2.3: 20, 22. -/
theorem test_regDump_fault : (run (State.reset.setI 0xFF1) 0xFF55).fault = some .addressFault ∧
    (run (State.reset.setI 0xFFF) 0xF155).fault = some .addressFault := by decide
/-- 2.3: 23. -/
theorem test_regLoad : ((run (withBytes ((regs [(3, 0x44)]).setI 0x300) 0x300 [1, 5, 7]) 0xF265).V.toList.take 4) =
    [1, 5, 7, 0x44] := by decide
/-- 2.3: 26, glyph 0 of the default font. -/
theorem test_regLoad_font : ((run State.reset 0xF465).V.toList.take 5) =
    [0xF0, 0x90, 0x90, 0x90, 0xF0] := by decide

/-! ## Display -/

/-- 2.4: 1. -/
theorem test_clearScreen : (run ((lit 3 0).setReg 15 1) 0x00E0).fb = blankScreen ∧
    (run ((lit 3 0).setReg 15 1) 0x00E0).reg 15 = 1 := by decide
/-- 2.4: 5, the rows wrap. -/
theorem test_draw_wraps : (run (withBytes ((regs [(0, 10), (1, 30)]).setI 0x300) 0x300 [0x80, 0x80, 0x80, 0x80])
    0xD014).fb = togglePixel (togglePixel (togglePixel (togglePixel blankScreen 10 30) 10 31) 10 0) 10 1 := by decide
/-- 2.4: 7, a collision. -/
theorem test_draw_collision : (run (withBytes ((lit 3 0).setI 0x300) 0x300 [0x10]) 0xD011).fb = blankScreen ∧
    (run (withBytes ((lit 3 0).setI 0x300) 0x300 [0x10]) 0xD011).reg 15 = 1 := by decide

/-! ## Keypad and timers -/

/-- 2.5: 7, 11. -/
theorem test_skipKeyPressed : (run ((regs [(0, 5)]).setKeys 0x0020) 0xE09E).pc = 0x204 ∧
    (run ((regs [(0, 0x25)]).setKeys 0x0020) 0xE09E).pc = 0x204 := by decide
/-- 2.5: 9, 10. -/
theorem test_skipKeyNotPressed : (run (regs [(0, 5)]) 0xE0A1).pc = 0x204 ∧
    (run ((regs [(0, 5)]).setKeys 0x0020) 0xE0A1).pc = 0x202 := by decide
/-- 2.5: 1. -/
theorem test_getDelay : (run (State.reset.setDt 0x3C) 0xF407).reg 4 = 0x3C := by decide
/-- 2.5: 14. -/
theorem test_waitKey : (run (State.reset.setKeys 0x0090) 0xF30A).reg 3 = 4 ∧
    (run (State.reset.setKeys 0x0090) 0xF30A).pc = 0x202 ∧
    (run (State.reset.setKeys 0x0090) 0xF30A).keyPrev = 0x0090 := by decide
/-- 2.5: 15, a held key. -/
theorem test_waitKey_held : (run ((State.reset.setKeys 8).setKeyPrev 8) 0xF30A).pc = 0x200 ∧
    (run ((State.reset.setKeys 8).setKeyPrev 8) 0xF30A).reg 3 = 0 := by decide
/-- 2.5: 2. -/
theorem test_setDelay : (run (regs [(4, 60)]) 0xF415).dt = 60 ∧ (run (regs [(4, 60)]) 0xF415).st = 0 := by decide
/-- 2.5: 3. -/
theorem test_setSound : (run (regs [(4, 2)]) 0xF418).sound = 2 ∧ (run (regs [(4, 2)]) 0xF418).dt = 0 := by decide
/-- 2.5: 4, 5, 6: Tick, at 0 too and while HALTED. -/
theorem test_tick : (((State.reset.setDt 3).setSt 1).tick.dt, ((State.reset.setDt 3).setSt 1).tick.st) = (2, 0) ∧
    State.reset.tick.dt = 0 ∧
    (after (step (((State.reset.setDt 1).setFault (some .decodeFault)).setDriver [.tick]))).dt = 0 := by decide

/-! ## Step, Load and Reset -/

/-- 2.6: 5. -/
theorem test_fetch_fault : (after (step (State.reset.setPc 0xFFF))).fault = some .addressFault := by decide
/-- Program P6, the empty image. -/
theorem test_empty_memory_faults : (after (step State.reset)).fault = some .decodeFault ∧
    (after (step State.reset)).pc = 0x200 := by decide
/-- R64: the image goes to 0x200. -/
theorem test_load : (after (step (State.reset.setDriver [.load [0x60, 0x05]]))).mem = [(0x200, 0x60), (0x201, 0x05)] := by
  decide
/-- D19, A16: no Load after the first Step. -/
theorem test_late_load_refused :
    step (State.reset.markStepped.setDriver [.load []]) = .refused .loadAfterFirstStep := rfl
/-- R240: Reset clears a fault and erases memory. -/
theorem test_reset : after (step ((withBytes (State.reset.setFault (some .loadFault)) 0x300 [1]).setDriver
    [.reset])) = State.reset := by decide
/-- R210: the codes. -/
theorem test_fault_codes : Fault.code none = 0 ∧ Fault.code (some .addressFault) = 1 ∧
    Fault.code (some .loadFault) = 5 := by decide
/-- A byte written back to what an unlisted address reads as is not listed. -/
theorem test_memory_canonical : Memory.write Config.default 0x300 0 (Memory.write Config.default 0x300 7 []) = [] ∧
    Memory.write Config.default 0 0xF0 (Memory.write Config.default 0 1 []) = [] := by decide

/-! ## Witnesses: states and operands that meet the hypotheses of the statements -/

/-- A state that is about to run 6005. -/
def w6005 : State := State.reset.withFetchWord 16 0x6005

theorem witness_EncodeInvertsDecode : decode 0x6005 = .instr (.loadImm 0 5) := by decide

theorem witness_StepRunsTheDecodedInstruction_empty : w6005.fault = none ∧ w6005.pc.toNat ≤ 4094 ∧
    decodeBytes [w6005.byteAt w6005.pc.toNat, w6005.byteAt (w6005.pc.toNat + 1)] = .instr (.loadImm 0 5) ∧
    w6005.driver = [] := by decide

/-- At the highest fetchable address, 4094, with the Step listed by the Driver. -/
theorem witness_StepRunsTheDecodedInstruction_listed :
    let s := ((State.reset.setPc 0xFFE).withFetchWord 16 0x6A55).setDriver [.step, .tick]
    s.fault = none ∧ s.pc.toNat = 4094 ∧
    decodeBytes [s.byteAt s.pc.toNat, s.byteAt (s.pc.toNat + 1)] = .instr (.loadImm 0xA 0x55) ∧
    s.driver = .step :: [.tick] := by decide

theorem witness_FetchBeyondMemoryFaults : (State.reset.setPc 0xFFF).driver = [] ∧
    (State.reset.setPc 0xFFF).fault = none ∧ 4094 < (State.reset.setPc 0xFFF).pc.toNat := by decide

theorem witness_IllegalOpcodeFaults : State.reset.driver = [] ∧ State.reset.fault = none ∧
    State.reset.pc.toNat ≤ 4094 ∧ wellFormedOpcode (State.reset.byteAt State.reset.pc.toNat ++
      State.reset.byteAt (State.reset.pc.toNat + 1)) = false := by decide

theorem witness_HaltedStepChangesNothing : (State.reset.setFault (some .stackOverflow)).driver = [] ∧
    (State.reset.setFault (some .stackOverflow)).fault ≠ none := by decide

theorem witness_FaultingStepIsPrecise : State.reset.driver = [] ∧ State.reset.fault = none ∧
    step State.reset = .next (after (step State.reset)) ∧ (after (step State.reset)).fault ≠ none :=
  ⟨rfl, rfl, rfl, by decide⟩

theorem witness_CompletedStepSamplesTheKeypad : w6005.driver = [] ∧ step w6005 = .next (after (step w6005)) ∧
    (after (step w6005)).fault = none := ⟨rfl, rfl, by decide⟩

theorem witness_EveryStepKeepsTheInvariant : State.reset.Inv ∧ step State.reset = .next (after (step State.reset)) :=
  ⟨⟨by decide, by decide, by decide, List.Pairwise.nil, by decide⟩, rfl⟩

/-- A HALTED core whose Driver invokes what is given. -/
def halted (d : List Invocation) : State := (State.reset.setFault (some .decodeFault)).setDriver d

theorem witness_OnlyResetLeavesTheHaltedState_step : (halted []).fault ≠ none ∧
    step (halted []) = .next (after (step (halted []))) ∧ (halted []).driver.head? ≠ some .reset :=
  ⟨by decide, rfl, by decide⟩

theorem witness_OnlyResetLeavesTheHaltedState_reset : (halted [.reset]).fault ≠ none ∧
    step (halted [.reset]) = .next (after (step (halted [.reset]))) ∧ (halted [.reset]).driver.head? = some .reset :=
  ⟨by decide, rfl, by decide⟩

theorem witness_HaltedRunsKeepTheFirstCause : (halted [.tick, .step]).fault ≠ none ∧
    .reset ∉ (halted [.tick, .step]).driver ∧ (∀ image, .load image ∉ (halted [.tick, .step]).driver) ∧
    Host.Core.run core 2 (halted [.tick, .step]) = .next (after (Host.Core.run core 2 (halted [.tick, .step]))) :=
  ⟨by decide, by decide, by simp [halted, State.setDriver], rfl⟩

theorem witness_EveryInstructionKeepsItsFrame :
    exec (.storeBCD 0) (State.reset.setI 0x300) = .next (after (exec (.storeBCD 0) (State.reset.setI 0x300))) ∧
    Instr.writesReg 0 (.storeBCD 0) = false ∧ ¬((State.reset.setI 0x300).I.toNat ≤ 0x303 ∧
      0x303 < (State.reset.setI 0x300).I.toNat + Instr.bytesStored (.storeBCD 0)) := ⟨rfl, by decide, by decide⟩

theorem witness_OnlyDisplayInstructions_instr : exec .clearScreen (lit 3 0) = .next (after (exec .clearScreen (lit 3 0))) ∧
    (after (exec .clearScreen (lit 3 0))).fb ≠ (lit 3 0).fb := ⟨rfl, by decide⟩

theorem witness_OnlyDisplayInstructions_invocation : invoke .reset (lit 3 0) = .next (after (invoke .reset (lit 3 0))) ∧
    (after (invoke .reset (lit 3 0))).fb ≠ (lit 3 0).fb := ⟨rfl, by decide⟩

/-- One frame in use, the least with which a return completes. -/
def oneFrame : State := State.reset.setStack 1 (State.reset.stack.set 0 0x202)

theorem witness_ProgramCounter_fault : State.reset.fault = none ∧
    exec .ret State.reset = .next (after (exec .ret State.reset)) ∧ (after (exec .ret State.reset)).fault ≠ none :=
  ⟨rfl, rfl, by decide⟩

theorem witness_ProgramCounter_return : oneFrame.fault = none ∧ exec .ret oneFrame = .next (after (exec .ret oneFrame)) ∧
    (after (exec .ret oneFrame)).fault = none ∧ oneFrame.sp.val = (0 : Fin 16).val + 1 := ⟨rfl, rfl, by decide, by decide⟩

theorem witness_ProgramCounter_waitKey : newlyPressed (State.reset.setKeys 0x8000) 15 ∧
    (∀ k, k < 16 → ¬newlyPressed State.reset k) ∧
    exec (.waitKey 3) State.reset = .next (after (exec (.waitKey 3) State.reset)) ∧
    (after (exec (.waitKey 3) State.reset)).fault = none := by
  refine ⟨by unfold newlyPressed; decide, fun k _ h => ?_, rfl, by decide⟩
  have := h.1; simp [State.reset, State.resetWith] at this

theorem witness_FlagRegister : State.reset.fault = none ∧
    exec (.draw 0 0 1) (lit 0 0) = .next (after (exec (.draw 0 0 1) (lit 0 0))) ∧
    (after (exec (.draw 0 0 1) (lit 0 0))).fault = none ∧
    TurnsOffAPixel (lit 0 0) (after (exec (.draw 0 0 1) (lit 0 0))) ∧
    ¬TurnsOffAPixel State.reset (after (exec (.draw 0 0 0) State.reset)) := by
  refine ⟨rfl, rfl, by decide, ⟨0, 0, by decide, by decide⟩, ?_⟩
  rintro ⟨px, py, h, _⟩
  simp [pixel, State.reset, State.resetWith] at h

theorem witness_CallPushesTheReturnAddress : (State.reset.setStack 15 State.reset.stack).sp.val < 16 ∧
    (State.reset.setStack 16 State.reset.stack).sp.val = 16 := by decide

theorem witness_ReturnPopsTheTopEntry : oneFrame.sp.val = (0 : Fin 16).val + 1 ∧
    (State.reset.setStack 16 State.reset.stack).sp.val = (15 : Fin 16).val + 1 ∧ State.reset.sp.val = 0 := by decide

theorem witness_ReturnUndoesCall : (State.reset.setStack 15 State.reset.stack).sp.val < 16 := by decide

theorem witness_WaitKey_new : newlyPressed (State.reset.setKeys 0x0090) 4 ∧
    (∀ j, j < 4 → ¬newlyPressed (State.reset.setKeys 0x0090) j) := by unfold newlyPressed; decide

theorem witness_WaitKey_first_and_last_key : newlyPressed (State.reset.setKeys 0x0001) 0 ∧
    newlyPressed (State.reset.setKeys 0x8000) 15 ∧
    (∀ j, j < 15 → ¬newlyPressed (State.reset.setKeys 0x8000) j) := by unfold newlyPressed; decide

theorem witness_TickDecrementsBothTimers : (State.reset.setDriver [.tick]).driver = .tick :: [] := rfl

theorem witness_NoInstructionReadsTheSoundTimer :
    exec (.setSound 4) (regs [(4, 2)]) = .next (after (exec (.setSound 4) (regs [(4, 2)]))) ∧
    (after (exec (.setSound 4) (regs [(4, 2)]))).st ≠ (regs [(4, 2)]).st ∧
    (after (exec (.setDelay 4) (regs [(4, 2)]))).dt ≠ (regs [(4, 2)]).dt := ⟨rfl, by decide, by decide⟩

/-- Both sides of the boundary of each block instruction (R65). -/
theorem witness_BlockBoundaries : (State.reset.setI 0xFFD).I.toNat + 2 ≤ 4095 ∧
    4095 < (State.reset.setI 0xFFE).I.toNat + 2 ∧ (State.reset.setI 0xFF0).I.toNat + (15 : Reg).val ≤ 4095 ∧
    4095 < (State.reset.setI 0xFF1).I.toNat + (15 : Reg).val := by decide

theorem witness_RegLoadRestoresWhatRegDumpSaved : (State.reset.setI 0xFF0).I.toNat + (15 : Reg).val ≤ 4095 ∧
    exec (.regDump 15) (State.reset.setI 0xFF0) = .next (after (exec (.regDump 15) (State.reset.setI 0xFF0))) :=
  ⟨by decide, rfl⟩

theorem witness_MemoryAccesses : 4095 ≤ 4095 ∧ 4095 < 4096 ∧
    State.reset.readBlock 4095 1 = .ok [0] ∧ State.reset.readBlock 4096 1 = .error .addressFault :=
  ⟨by decide, by decide, rfl, rfl⟩

theorem witness_CanonicalMemories : Memory.wf Config.default [(0x200, 0x60), (0xFFF, 1)] ∧
    Memory.wf Config.default (Memory.write Config.default 0x200 0x60 [(0xFFF, 1)]) := by decide

theorem witness_DrawBoundaries : (0 : BitVec 4) = 0 ∧
    (State.reset.setI 0xFFF).I.toNat + (1 : BitVec 4).toNat - 1 ≤ 4095 ∧
    ((2 : BitVec 4) ≠ 0 ∧ 4095 < (State.reset.setI 0xFFF).I.toNat + (2 : BitVec 4).toNat - 1) := by decide

/-- The sprite F0 at (0, 0) covers the lit pixel (3, 0), and not (4, 0). -/
theorem witness_DrawCovers : SpriteCovers (lit 3 0) 0 0 1 3 0 ∧ pixel (lit 3 0).fb 3 0 = true ∧
    ¬SpriteCovers (lit 3 0) 0 0 1 4 0 := by
  refine ⟨⟨0, 3, by decide, by decide, by decide, rfl, rfl⟩, by decide, ?_⟩
  rintro ⟨r, c, hr, hc, hb, hx, _⟩
  have hr0 : r = 0 := by omega
  have hx' : (4 : Nat) = (0 + c) % 64 := hx
  have hc4 : c = 4 := by omega
  subst hr0 hc4
  revert hb
  decide

/-- On a dark screen no covered pixel is lit. -/
theorem witness_DrawWithoutCollision : ∀ px py, SpriteCovers State.reset 0 0 1 px py →
    pixel State.reset.fb px py = false := by
  intro px py _; simp [pixel, State.reset, State.resetWith]

theorem witness_DrawingTwiceRestoresTheScreen :
    (5 : BitVec 4) = 0 ∨ State.reset.I.toNat + (5 : BitVec 4).toNat - 1 ≤ 4095 := by decide

theorem witness_DrawingTwice_first_draw :
    exec (.draw 0 1 5) State.reset = .next (after (exec (.draw 0 1 5) State.reset)) ∧
    (after (exec (.draw 0 1 5) State.reset)).reg 0 = State.reset.reg 0 ∧
    (after (exec (.draw 0 1 5) State.reset)).reg 1 = State.reset.reg 1 ∧
    (after (exec (.draw 0 1 5) State.reset)).reg 15 = 0 ∧ SpriteCovers State.reset 0 0 5 0 0 :=
  ⟨rfl, by decide, by decide, by decide, ⟨0, 0, by decide, by decide, by decide, rfl, rfl⟩⟩

theorem witness_ResetValues : ¬(Config.default.fontBase.val ≤ 80 ∧ 80 < Config.default.fontBase.val + 80) := by decide

theorem witness_ResetInvocation : (halted [.reset, .step]).driver = .reset :: [.step] := rfl

theorem witness_LoadPlacesTheImage : State.reset.stepped = false ∧ (List.replicate 3584 (0 : Byte)).length ≤ 3584 ∧
    3584 < (List.replicate 3585 (0 : Byte)).length ∧ State.reset.markStepped.stepped = true ∧
    (State.reset.setDriver [.load [0x60]]).driver = .load [0x60] :: [] ∧ ¬(0x200 ≤ 0x201 ∧ 0x201 < 0x200 + 1) :=
  ⟨rfl, by rw [List.length_replicate], by rw [List.length_replicate]; decide, rfl, rfl, by decide⟩

theorem witness_InputSource : (State.reset.setDriver [.setKeys 0xFFFF]).driver = .setKeys 0xFFFF :: [] := rfl

/-- `jump 0x200` at 0x200 (2.1: 2). -/
theorem witness_JumpToSelfIsAnIdleLoop : let s := State.reset.withFetchWord 16 0x1200
    s.driver = [] ∧ s.fault = none ∧ s.pc.toNat ≤ 4094 ∧ s.pc = BitVec.ofNat 16 (0x200 : BitVec 12).toNat ∧
    s.byteAt s.pc.toNat ++ s.byteAt (s.pc.toNat + 1) = wordNNN 0x1000 0x200 := by decide

end Sys2Proof.Tests
end

/-! PROOFS. What an instruction can do, said once (`exec_cases`), and what follows from it for the statements of
spec/10_state.md: the frame, the timers, PC, the flag register, the invariant and the reset state. -/

namespace Sys2Proof

open Machine

/-- Whether the one thing that an instruction checks before it writes holds: a frame to pop or to push, or a block
inside the address space (R105, R216). -/
def Instr.ready (s : State) : Instr → Bool
  | .ret => 0 < s.sp.val
  | .call _ => s.sp.val < 16
  | .draw _ _ n => blockFits s.I.toNat n.toNat
  | .storeBCD _ => blockFits s.I.toNat 3
  | .regDump x | .regLoad x => blockFits s.I.toNat (x.val + 1)
  | _ => true

/-- The state after an instruction that raises no fault. The six that check something, and wait-key, are written
out with the branch they take; each other one is its own equation of `exec`. -/
def Instr.CompletesTo (i : Instr) (s t : State) : Prop :=
  match i with
  | .ret => t = (s.setStack ⟨s.sp.val - 1, by omega⟩ s.stack).setPc s.stack[s.sp.val - 1]
  | .call nnn => ∃ h : s.sp.val < 16,
      t = (s.setStack ⟨s.sp.val + 1, by omega⟩ (s.stack.set s.sp.val (s.pc + 2))).setPc (zext16 nnn)
  | .draw x y n =>
      t = (s.drawSprite (s.reg x) (s.reg y) (s.mem.readAll s.config s.I.toNat n.toNat)).advance
  | .storeBCD x => t = (s.setMem (s.mem.writeAll s.config s.I.toNat (bcdDigits (s.reg x)))).advance
  | .regDump x => t = (s.setMem (s.mem.writeAll s.config s.I.toNat (s.regsUpTo x))).advance
  | .regLoad x => t = (s.setV (fillRegs s.V 0 (s.mem.readAll s.config s.I.toNat (x.val + 1)))).advance
  | .waitKey x => (leastKey (newKeys s.keys s.keyPrev) = none ∧ t = s.setPc s.pc) ∨
      ∃ k, leastKey (newKeys s.keys s.keyPrev) = some k ∧ t = (s.setReg x (BitVec.ofNat 8 k)).advance
  | i => exec i s = .next t

end Sys2Proof

namespace Sys2Proof.Machine

open Statements

variable {i : Instr} {s t : State}

/-! ## What an instruction can do -/

/-- R52, R105: the two ends of an instruction that reads a block. -/
theorem settle_readBlock_cases {base n : Nat} {g : List Byte → State}
    (h : settle s ((s.readBlock base n).map g) = .next t) :
    (blockFits base n = false ∧ t = s.setFault (some .addressFault)) ∨
    (blockFits base n = true ∧ t = g (s.mem.readAll s.config base n)) := by
  rcases s.readBlock_cases base n with ⟨hf, hr⟩ | ⟨hf, hr⟩ <;> rw [hr] at h <;> cases h
  · exact .inr ⟨hf, rfl⟩
  · exact .inl ⟨hf, rfl⟩

/-- R53, R105: the two ends of an instruction that stores a block. -/
theorem settle_writeBlock_cases {base : Nat} {bs : List Byte} {g : State → State}
    (h : settle s ((s.writeBlock base bs).map g) = .next t) :
    (blockFits base bs.length = false ∧ t = s.setFault (some .addressFault)) ∨
    (blockFits base bs.length = true ∧ t = g (s.setMem (s.mem.writeAll s.config base bs))) := by
  rcases s.writeBlock_cases base bs with ⟨hf, hw⟩ | ⟨hf, hw⟩ <;> rw [hw] at h <;> cases h
  · exact .inr ⟨hf, rfl⟩
  · exact .inl ⟨hf, rfl⟩

/-- Everything an instruction can do: raise its one fault, with nothing else changed, or complete. -/
theorem exec_cases (h : exec i s = .next t) :
    (i.ready s = false ∧ t = s.setFault i.executeFault) ∨ (i.ready s = true ∧ i.CompletesTo s t) := by
  cases i with
  | draw x y n => exact settle_readBlock_cases h
  | regLoad x => exact settle_readBlock_cases h
  | storeBCD x => exact settle_writeBlock_cases h
  | regDump x =>
    have := settle_writeBlock_cases (g := State.advance) h
    rwa [State.length_regsUpTo] at this
  | ret =>
    simp only [exec, execReturn] at h
    by_cases hs : 0 < s.sp.val
    · rw [State.pop_ok hs] at h
      cases h
      exact .inr ⟨decide_eq_true hs, rfl⟩
    · rw [State.pop_empty (by omega)] at h
      cases h
      exact .inl ⟨decide_eq_false hs, rfl⟩
  | call nnn =>
    simp only [exec, execCall] at h
    by_cases hs : s.sp.val < 16
    · rw [State.push_ok _ hs] at h
      cases h
      exact .inr ⟨decide_eq_true hs, hs, rfl⟩
    · rw [State.push_full _ (by omega)] at h
      cases h
      exact .inl ⟨decide_eq_false hs, rfl⟩
  | waitKey x =>
    simp only [exec, execWaitKey] at h
    refine .inr ⟨rfl, ?_⟩
    split at h <;> cases h
    · exact .inl ⟨‹_›, rfl⟩
    · exact .inr ⟨_, ‹_›, rfl⟩
  | _ => exact .inr ⟨rfl, h⟩

/-- Every instruction answers a next state in every state. -/
theorem exec_total (i : Instr) (s : State) : ∃ t, exec i s = .next t := by
  have settles (r : Except Fault State) : ∃ t, settle s r = .next t := by cases r <;> exact ⟨_, rfl⟩
  cases i with
  | ret | call | draw | storeBCD | regDump | regLoad => exact settles _
  | waitKey x => simp only [exec, execWaitKey]; split <;> exact ⟨_, rfl⟩
  | _ => exact ⟨_, rfl⟩

/-- An instruction that is not ready has a fault to raise. -/
theorem executeFault_ne_none (h : i.ready s = false) : i.executeFault ≠ none := by
  cases i <;> simp_all [Instr.ready, Instr.executeFault]

/-- Whether an instruction raised a fault is read off the fault register. -/
theorem completesTo_of_fault_none (h : exec i s = .next t) (hf : t.fault = none) : i.CompletesTo s t := by
  rcases exec_cases h with ⟨hr, rfl⟩ | ⟨-, hc⟩
  · exact absurd hf (executeFault_ne_none hr)
  · exact hc

/-! ## The frame of an instruction -/

/-- The frame of R20 to R36, element by element, so that `simp` can decide a concrete one. -/
theorem onlyChanges_iff {l : List Part} : OnlyChanges l s t ↔
    (.V ∉ l → t.V = s.V) ∧ (.I ∉ l → t.I = s.I) ∧ (.pc ∉ l → t.pc = s.pc) ∧
    (.stack ∉ l → t.sp = s.sp ∧ t.stack = s.stack) ∧ (.mem ∉ l → ∀ a, t.byteAt a = s.byteAt a) ∧
    (.fb ∉ l → t.fb = s.fb) ∧ (.dt ∉ l → t.dt = s.dt) ∧ (.st ∉ l → t.st = s.st) ∧
    (.fault ∉ l → t.fault = s.fault) ∧ (.keyPrev ∉ l → t.keyPrev = s.keyPrev) ∧
    (.keys ∉ l → t.keys = s.keys) ∧ (.draws ∉ l → t.draws = s.draws) ∧
    (.config ∉ l → t.config = s.config) ∧ (.driver ∉ l → t.driver = s.driver) ∧
    (.stepped ∉ l → t.stepped = s.stepped) := by
  constructor
  · intro h
    exact ⟨h .V, h .I, h .pc, h .stack, h .mem, h .fb, h .dt, h .st, h .fault, h .keyPrev, h .keys, h .draws,
      h .config, h .driver, h .stepped⟩
  · rintro ⟨_, _, _, _, _, _, _, _, _, _, _, _, _, _, _⟩ p
    cases p <;> assumption

/-- An instruction that completes changes only what its table of written elements names. -/
theorem onlyChanges_of_completesTo (h : i.CompletesTo s t) : OnlyChanges i.writes s t := by
  cases i with
  | ret | draw | storeBCD | regDump | regLoad =>
    obtain rfl := h
    simp [onlyChanges_iff, Instr.writes, State.drawSprite]
  | call nnn =>
    obtain ⟨_, rfl⟩ := h
    simp [onlyChanges_iff, Instr.writes]
  | waitKey x =>
    obtain ⟨_, rfl⟩ | ⟨k, _, rfl⟩ := h <;> simp [onlyChanges_iff, Instr.writes]
  | _ =>
    obtain rfl := Host.Outcome.next.inj h
    simp [onlyChanges_iff, Instr.writes]

theorem fault_of_completesTo (h : i.CompletesTo s t) : t.fault = s.fault :=
  onlyChanges_of_completesTo h .fault (by cases i <;> simp [Instr.writes])

/-- R217 and the tables of files 41 to 45: a fault changes the fault register, a completed instruction its table. -/
theorem exec_onlyChanges (h : exec i s = .next t) : OnlyChanges (.fault :: i.writes) s t := by
  rcases exec_cases h with ⟨-, rfl⟩ | ⟨-, hc⟩
  · simp [onlyChanges_iff]
  · exact fun p hp => onlyChanges_of_completesTo hc p fun hm => hp (.tail _ hm)

/-- R22, R147: the registers an instruction writes are its destinations. -/
theorem exec_reg_frame {r : Reg} (h : exec i s = .next t) (hr : i.writesReg r = false) : t.reg r = s.reg r := by
  rcases exec_cases h with ⟨-, rfl⟩ | ⟨-, hc⟩
  · rfl
  cases i with
  | loadImm x | addImm x | copy x | or x | and x | xor x | rand x | getDelay x =>
    obtain rfl := Host.Outcome.next.inj hc
    exact State.reg_setReg_ne _ _ (by simpa [Instr.writesReg] using hr)
  | add x | sub x | shr x | subn x | shl x =>
    obtain rfl := Host.Outcome.next.inj hc
    simp only [Instr.writesReg, Bool.or_eq_false_iff, beq_eq_false_iff_ne] at hr
    exact State.reg_setFlagThenResult_other _ _ _ hr.1 hr.2
  | draw x y n =>
    obtain rfl := hc
    exact State.reg_setReg_ne _ _ (by simpa [Instr.writesReg] using hr)
  | waitKey x =>
    obtain ⟨_, rfl⟩ | ⟨k, _, rfl⟩ := hc
    · rfl
    · exact State.reg_setReg_ne _ _ (by simpa [Instr.writesReg] using hr)
  | regLoad x =>
    obtain rfl := hc
    have : x.val < r.val := by simpa [Instr.writesReg] using hr
    exact (getElem_fillRegs _ _ _ _ _).trans (dif_neg (by rw [Memory.length_readAll]; omega))
  | _ =>
    exact congrArg (·[r]) (exec_onlyChanges h .V (by simp [Instr.writes]))

/-- R57, R163: the memory after an instruction is as before, or the bytes it stores stand from I upward, inside the
address space. -/
theorem exec_mem_cases (h : exec i s = .next t) : t.mem = s.mem ∨
    ∃ bs, bs.length = i.bytesStored ∧ s.I.toNat + bs.length ≤ 4096 ∧
      t.mem = s.mem.writeAll s.config s.I.toNat bs := by
  rcases exec_cases h with ⟨-, rfl⟩ | ⟨hr, hc⟩
  · exact .inl rfl
  cases i with
  | storeBCD x =>
    obtain rfl := hc
    have := (blockFits_iff _ _).mp hr
    exact .inr ⟨_, rfl, by simp only [length_bcdDigits]; omega, rfl⟩
  | regDump x =>
    obtain rfl := hc
    have := (blockFits_iff _ _).mp hr
    exact .inr ⟨_, s.length_regsUpTo x, by rw [State.length_regsUpTo]; omega, rfl⟩
  | ret | draw | regLoad => obtain rfl := hc; exact .inl rfl
  | call => obtain ⟨_, rfl⟩ := hc; exact .inl rfl
  | waitKey => obtain ⟨_, rfl⟩ | ⟨k, _, rfl⟩ := hc <;> exact .inl rfl
  | _ => obtain rfl := Host.Outcome.next.inj hc; exact .inl rfl

/-- R10: the parameters are fixed. -/
theorem exec_config (h : exec i s = .next t) : t.config = s.config :=
  exec_onlyChanges h .config (by cases i <;> simp [Instr.writes])

/-- R57: the bytes outside the stored block read as before. -/
theorem exec_byteAt_frame {a : Nat} (h : exec i s = .next t)
    (ha : ¬(s.I.toNat ≤ a ∧ a < s.I.toNat + i.bytesStored)) : t.byteAt a = s.byteAt a := by
  rw [State.byteAt, State.byteAt, exec_config h]
  rcases exec_mem_cases h with hm | ⟨bs, hl, -, hm⟩ <;> rw [hm]
  rw [Memory.read_writeAll, dif_neg (hl ▸ ha)]

/-- Settles O18, from the frames of the elements, of the registers and of the bytes, each shown over `exec_cases`. -/
theorem everyInstructionKeepsItsFrame : Obligations.EveryInstructionKeepsItsFrame :=
  fun _ _ _ h => ⟨exec_onlyChanges h, fun _ => exec_reg_frame h, fun _ => exec_byteAt_frame h⟩

/-! ## The timers -/

/-- The contrapositive of the frame: what differs afterwards is in the table of written elements. -/
theorem mem_writes_of_not_same {p : Part} (h : exec i s = .next t) (hp : ¬p.same s t) : p ∈ .fault :: i.writes :=
  by_contra fun hw => hp (exec_onlyChanges h p hw)

theorem dt_mem_writes (h : .dt ∈ .fault :: i.writes) : ∃ x, i = .setDelay x := by
  cases i <;> simp_all [Instr.writes]

theorem st_mem_writes (h : .st ∈ .fault :: i.writes) : ∃ x, i = .setSound x := by
  cases i <;> simp_all [Instr.writes]

/-- The value of ST moves no check of an instruction and, but for ST itself, no result. -/
theorem completesTo_setSt {u : State} {v : Byte} (ht : i.CompletesTo s t) (hu : i.CompletesTo (s.setSt v) u) :
    ∃ w, u = t.setSt w := by
  cases i with
  | setSound x =>
    obtain rfl := Host.Outcome.next.inj ht
    obtain rfl := Host.Outcome.next.inj hu
    exact ⟨s.reg x, rfl⟩
  | ret | draw | storeBCD | regDump | regLoad =>
    obtain rfl := ht
    obtain rfl := hu
    exact ⟨v, rfl⟩
  | call =>
    obtain ⟨_, rfl⟩ := ht
    obtain ⟨_, rfl⟩ := hu
    exact ⟨v, rfl⟩
  | waitKey =>
    obtain ⟨hk, rfl⟩ | ⟨k, hk, rfl⟩ := ht <;> obtain ⟨hj, rfl⟩ | ⟨j, hj, rfl⟩ := hu
    · exact ⟨v, rfl⟩
    · cases hk.symm.trans hj
    · cases hk.symm.trans hj
    · cases hk.symm.trans hj
      exact ⟨v, rfl⟩
  | _ =>
    obtain rfl := Host.Outcome.next.inj ht
    obtain rfl := Host.Outcome.next.inj hu
    exact ⟨v, rfl⟩

theorem ready_setSt (i : Instr) (s : State) (v : Byte) : i.ready (s.setSt v) = i.ready s := by
  cases i <;> rfl

/-- R28: an instruction takes the same branch and has the same results whatever ST holds. -/
theorem exec_setSt (h : exec i s = .next t) (v : Byte) : ∃ w, exec i (s.setSt v) = .next (t.setSt w) := by
  obtain ⟨u, hu⟩ := exec_total i (s.setSt v)
  suffices ∃ w, u = t.setSt w by
    obtain ⟨w, rfl⟩ := this
    exact ⟨w, hu⟩
  rcases exec_cases h with ⟨hr, rfl⟩ | ⟨hr, ht⟩ <;>
    rcases exec_cases hu with ⟨hr', rfl⟩ | ⟨hr', hu⟩ <;> rw [ready_setSt, hr] at hr'
  · exact ⟨v, rfl⟩
  · cases hr'
  · cases hr'
  · exact completesTo_setSt ht hu

/-- Settles O40: DT and ST stand in one table of written elements each, and `exec_setSt` is the independence of ST. -/
theorem noInstructionReadsTheSoundTimer : Obligations.NoInstructionReadsTheSoundTimer := by
  intro i s t h
  refine ⟨fun hdt => ?_, fun hst => ?_, exec_setSt h⟩
  · obtain ⟨x, rfl⟩ := dt_mem_writes (mem_writes_of_not_same h hdt)
    obtain rfl := Host.Outcome.next.inj h
    exact ⟨x, rfl, rfl⟩
  · obtain ⟨x, rfl⟩ := st_mem_writes (mem_writes_of_not_same h hst)
    obtain rfl := Host.Outcome.next.inj h
    exact ⟨x, rfl, rfl⟩

/-! ## PC -/

/-- R197: the key that a skip tests. -/
theorem keyPressed_eq (keys : Word) (a : Byte) : keyPressed keys a = keys.getLsbD (a.toNat % 16) := by
  rw [keyPressed, lowNibble_eq]

/-- R194: the bits of the new keys. -/
theorem getLsbD_newKeys {k : Nat} (hk : k < 16) : (newKeys s.keys s.keyPrev).getLsbD k = true ↔ newlyPressed s k := by
  simp [newKeys, newlyPressed, hk]

/-- R217: an instruction that raises a fault leaves PC where it is. -/
theorem exec_pc_of_fault (hs : s.fault = none) (h : exec i s = .next t) (hf : t.fault ≠ none) : t.pc = s.pc := by
  rcases exec_cases h with ⟨-, rfl⟩ | ⟨-, hc⟩
  · rfl
  · exact absurd ((fault_of_completesTo hc).trans hs) hf

/-- Settles O20: a fault leaves PC by `exec_pc_of_fault`, and each completed instruction has its own value of PC. -/
theorem programCounterAfterEveryInstruction : Obligations.ProgramCounterAfterEveryInstruction := by
  intro i s t hs h
  refine ⟨exec_pc_of_fault hs h, fun hf => ?_⟩
  have hc := completesTo_of_fault_none h hf
  cases i with
  | ret =>
    obtain rfl := hc
    intro k hk
    simp [hk]
  | call nnn =>
    obtain ⟨_, rfl⟩ := hc
    exact zext16_toNat nnn
  | jump nnn =>
    obtain rfl := Host.Outcome.next.inj hc
    exact zext16_toNat nnn
  | jumpOffset nnn =>
    obtain rfl := Host.Outcome.next.inj hc
    exact offsetTarget_toNat nnn _
  | skipEqImm | skipNeImm | skipEqReg | skipNeReg =>
    obtain rfl := Host.Outcome.next.inj hc
    simp
  | skipKeyPressed x =>
    obtain rfl := Host.Outcome.next.inj hc
    simp only [State.skipIf_pc, keyPressed_eq]
  | skipKeyNotPressed x =>
    obtain rfl := Host.Outcome.next.inj hc
    simp only [State.skipIf_pc, keyPressed_eq]
    cases s.keys.getLsbD ((s.reg x).toNat % 16) <;> rfl
  | waitKey x =>
    obtain ⟨hn, rfl⟩ | ⟨k, hk, rfl⟩ := hc
    · rw [leastKey_none_iff] at hn
      refine ⟨fun ⟨k, hk, hp⟩ => ?_, fun _ => rfl⟩
      rw [← getLsbD_newKeys hk, hn k hk] at hp
      cases hp
    · obtain ⟨hk, hp, -⟩ := (leastKey_some_iff _ _).mp hk
      exact ⟨fun _ => rfl, fun hn => absurd ((getLsbD_newKeys hk).mp hp) (hn k hk)⟩
  | draw | storeBCD | regDump | regLoad => obtain rfl := hc; rfl
  | _ => obtain rfl := Host.Outcome.next.inj hc; rfl

/-! ## The flag register -/

theorem flagByte_toNat (b : Bool) : (flagByte b).toNat = if b then 1 else 0 := by
  cases b <;> rfl

theorem noCarry_toNat (a b : Byte) : (noCarry a b).toNat = if a.toNat + b.toNat ≤ 255 then 1 else 0 := by
  simp [noCarry, flagByte_toNat]

theorem noBorrow_toNat (m s : Byte) : (noBorrow m s).toNat = if m.toNat ≥ s.toNat then 1 else 0 := by
  simp [noBorrow, flagByte_toNat]

/-- R147: VF after the flag and then the result are written. -/
theorem State.reg_vf_setFlagThenResult {x : Reg} {f v : Byte} {flag result : Nat} (hv : v.toNat = result)
    (hf : f.toNat = flag) :
    ((s.setFlagThenResult x f v).reg 15).toNat = if x = 15 then result else flag := by
  split
  · next hx => subst hx; rwa [State.reg_setFlagThenResult_dest]
  · next hx => rwa [State.reg_setFlagThenResult_flag s f v hx]

open scoped Classical in
/-- R183: a canvas without a hit gets one exactly when some lit pixel is turned off. -/
theorem Canvas.hit_plotRows_iff_turnsOff (ox oy : Byte) (bs : List Byte) (hl : bs.length ≤ 32) (fb : Framebuffer) :
    ((Canvas.mk fb false).plotRows ox oy 0 bs).hit = true ↔
      ∃ px py, pixel fb px py = true ∧ pixel ((Canvas.mk fb false).plotRows ox oy 0 bs).fb px py = false := by
  rw [Canvas.hit_plotRows _ _ _ _ (by omega)]
  simp only [Canvas.pixel_plotRows ox oy bs 0 (by omega : 0 + bs.length ≤ 32)]
  constructor
  · rintro (h | ⟨e, c, h, hc, hb, hp⟩)
    · cases h
    · exact ⟨_, _, hp, by rw [hp, decide_eq_true ⟨e, c, h, rfl, hc, hb, rfl⟩]; rfl⟩
  · rintro ⟨px, py, hp, hoff⟩
    rw [hp, Bool.true_xor, Bool.not_eq_false', decide_eq_true_iff] at hoff
    obtain ⟨e, c, h, rfl, hc, hb, rfl⟩ := hoff
    exact .inr ⟨e, c, h, hc, hb, hp⟩

/-- R181, R183: VF after a sprite of at most 32 rows is drawn. -/
theorem State.reg_vf_drawSprite (s : State) (ox oy : Byte) {rows : List Byte} (hl : rows.length ≤ 32) :
    (TurnsOffAPixel s (s.drawSprite ox oy rows) → (s.drawSprite ox oy rows).reg 15 = 1) ∧
    (¬TurnsOffAPixel s (s.drawSprite ox oy rows) → (s.drawSprite ox oy rows).reg 15 = 0) := by
  have hvf : (s.drawSprite ox oy rows).reg 15 = collision ((Canvas.mk s.fb false).plotRows ox oy 0 rows).hit :=
    State.reg_setReg_same _ _ _
  have hoff := Canvas.hit_plotRows_iff_turnsOff ox oy rows hl s.fb
  rw [hvf]
  refine ⟨fun h => ?_, fun h => ?_⟩
  · rw [hoff.mpr h]; rfl
  · rw [Bool.eq_false_iff.mpr (mt hoff.mp h)]; rfl

/-- Settles O28: the five ALU writers by `reg_vf_setFlagThenResult`, draw by `reg_vf_drawSprite`, and every other
instruction by the frame of the registers. -/
theorem flagRegisterIsWrittenByTheSixInstructionsOnly : Obligations.FlagRegisterIsWrittenByTheSixInstructionsOnly := by
  intro i s t hs h hf
  cases i with
  | add x y =>
    obtain rfl := Host.Outcome.next.inj h
    exact State.reg_vf_setFlagThenResult (sumByte_toNat _ _) (noCarry_toNat _ _)
  | sub x y =>
    obtain rfl := Host.Outcome.next.inj h
    exact State.reg_vf_setFlagThenResult (diffByte_toNat _ _) (noBorrow_toNat _ _)
  | shr x y =>
    obtain rfl := Host.Outcome.next.inj h
    exact State.reg_vf_setFlagThenResult (shrByte_toNat _) (shrOut_toNat _)
  | subn x y =>
    obtain rfl := Host.Outcome.next.inj h
    exact State.reg_vf_setFlagThenResult (diffByte_toNat _ _) (noBorrow_toNat _ _)
  | shl x y =>
    obtain rfl := Host.Outcome.next.inj h
    exact State.reg_vf_setFlagThenResult (shlByte_toNat _) (shlOut_toNat _)
  | draw x y n =>
    obtain rfl := completesTo_of_fault_none h hf
    exact s.reg_vf_drawSprite _ _ (by rw [Memory.length_readAll]; omega)
  | loadImm x | addImm x | copy x | or x | and x | xor x | rand x | getDelay x | waitKey x =>
    intro hx
    exact exec_reg_frame h (by simpa [Instr.writesReg] using hx.symm)
  | regLoad x =>
    intro hx
    have : ¬(15 : Reg) ≤ x := fun hle => hx (le_antisymm (Fin.le_last x) hle)
    exact exec_reg_frame h (decide_eq_false this)
  | _ => exact exec_reg_frame h rfl

/-! ## The invariant, and the reset state -/

/-- R27: I stays an address; load-I, add-I and font-addr are its only writers. -/
theorem exec_index_bounded (hi : s.Inv) (h : exec i s = .next t) : t.I.toNat ≤ 4095 := by
  cases i with
  | loadI nnn =>
    obtain rfl := Host.Outcome.next.inj h
    have := zext16_toNat nnn
    simp only [State.advance_I, State.setI_I]
    omega
  | addI x =>
    obtain rfl := Host.Outcome.next.inj h
    simp only [State.advance_I, State.setI_I, addIndex_toNat]
    omega
  | fontAddr x =>
    obtain rfl := Host.Outcome.next.inj h
    simp only [State.advance_I, State.setI_I, glyphAddress_toNat]
    omega
  | _ =>
    have : t.I = s.I := exec_onlyChanges h .I (by simp [Instr.writes])
    exact this ▸ hi.index_in_memory

/-- R25: the greatest PC is that of jump-offset; the others stay within 4 of a fetchable address. -/
theorem exec_pc_bounded (hi : s.Inv) (hp : s.pc.toNat ≤ 4094) (hs : s.fault = none) (h : exec i s = .next t) :
    t.pc.toNat ≤ 0x10FE := by
  have hpc := programCounterAfterEveryInstruction i s t hs h
  by_cases hf : t.fault = none
  · have hc := completesTo_of_fault_none h hf
    have next := hpc.2 hf
    cases i with
    | ret =>
      obtain rfl := hc
      exact (hi.stack_bounded ⟨s.sp.val - 1, by omega⟩).trans (by decide)
    | jump | call | jumpOffset =>
      simp only at next
      omega
    | skipEqImm | skipNeImm | skipEqReg | skipNeReg | skipKeyPressed | skipKeyNotPressed =>
      simp only at next
      split at next <;> bv_omega
    | waitKey =>
      obtain ⟨_, rfl⟩ | ⟨k, _, rfl⟩ := hc
      · exact hi.pc_bounded
      · simp only [State.advance_pc, State.setReg_pc]
        bv_omega
    | _ =>
      simp only at next
      bv_omega
  · exact hpc.1 hf ▸ hi.pc_bounded

/-- R121: the entry that a call pushes is 2 above a fetchable address. -/
theorem exec_stack_bounded (hi : s.Inv) (hp : s.pc.toNat ≤ 4094) (h : exec i s = .next t) (k : Fin 16) :
    t.stack[k].toNat ≤ 4096 := by
  rcases exec_cases h with ⟨-, rfl⟩ | ⟨-, hc⟩
  · exact hi.stack_bounded k
  cases i with
  | ret => obtain rfl := hc; exact hi.stack_bounded k
  | call nnn =>
    obtain ⟨hs, rfl⟩ := hc
    have hk := hi.stack_bounded k
    simp only [State.setPc_stack, State.setStack_stack, Fin.getElem_fin, Vector.getElem_set] at hk ⊢
    split
    · bv_omega
    · exact hk
  | _ =>
    have : t.stack = s.stack := (exec_onlyChanges h .stack (by simp [Instr.writes])).2
    exact this ▸ hi.stack_bounded k

/-- R50: a stored block lies inside the address space, so memory stays canonical. -/
theorem exec_mem_canonical (hi : s.Inv) (h : exec i s = .next t) : t.mem.wf t.config := by
  rw [exec_config h]
  rcases exec_mem_cases h with hm | ⟨bs, -, hl, hm⟩ <;> rw [hm]
  · exact hi.mem_canonical
  · exact Memory.writeAll_wf bs hi.mem_canonical hl

/-- An instruction that was fetched, so from PC at most 4094, keeps the invariant. -/
theorem exec_inv (hi : s.Inv) (hp : s.pc.toNat ≤ 4094) (hs : s.fault = none) (h : exec i s = .next t) : t.Inv :=
  ⟨exec_index_bounded hi h, exec_pc_bounded hi hp hs h, exec_stack_bounded hi hp h, exec_mem_canonical hi h⟩

/-- The invariant speaks of I, PC, the stack entries and memory only. -/
theorem State.Inv.congr (hi : s.Inv) (hI : t.I = s.I) (hpc : t.pc = s.pc) (hstack : t.stack = s.stack)
    (hmem : t.mem = s.mem) (hconfig : t.config = s.config) : t.Inv :=
  ⟨hI ▸ hi.index_in_memory, hpc ▸ hi.pc_bounded, hstack ▸ hi.stack_bounded,
    hmem ▸ hconfig ▸ hi.mem_canonical⟩

theorem State.Inv.commit (hi : s.Inv) : s.commit.Inv := by
  rcases s.commit_cases with ⟨-, hc⟩ | ⟨-, hc⟩ <;> rw [hc]
  · exact hi.congr rfl rfl rfl rfl rfl
  · exact hi

theorem coreStep_inv (hi : s.Inv) (h : coreStep s = .next t) : t.Inv := by
  by_cases hs : s.fault = none
  · obtain ⟨-, hc⟩ | ⟨hp, w, -, -, ⟨r, -, hc⟩ | ⟨i, -, hc⟩⟩ := coreStep_running hs <;> rw [hc] at h
    · cases h
      exact hi.congr rfl rfl rfl rfl rfl
    · cases h
      exact hi.congr rfl rfl rfl rfl rfl
    · obtain ⟨u, hu, rfl⟩ := commitOutcome_next h
      exact (exec_inv hi hp hs hu).commit
  · rw [coreStep_halted hs] at h
    cases h
    exact hi

/-- R64: an accepted image ends at 4095 at most. -/
theorem load_inv {image : List Byte} (hi : s.Inv) (h : load image s = .next t) : t.Inv := by
  obtain ⟨-, hl⟩ | ⟨-, -, hl⟩ | ⟨-, hlen, hl⟩ := load_cases image s <;> rw [hl] at h <;> cases h
  · exact hi.congr rfl rfl rfl rfl rfl
  · obtain ⟨hI, hpc, hstack, hmem⟩ := hi
    exact ⟨hI, hpc, hstack, Memory.writeAll_wf image hmem (Nat.add_le_add_left hlen 0x200)⟩

theorem resetWith_inv (c : Config) : (State.resetWith c).Inv :=
  ⟨by simp [State.resetWith], by simp [State.resetWith], by simp [State.resetWith], State.reset_mem_wf c⟩

theorem invoke_inv {m : Invocation} (hi : s.Inv) (h : invoke m s = .next t) : t.Inv := by
  cases m with
  | step => exact coreStep_inv (s := s.markStepped) (hi.congr rfl rfl rfl rfl rfl) h
  | load image => exact load_inv hi h
  | tick | setKeys =>
    obtain rfl := Host.Outcome.next.inj h
    exact hi.congr rfl rfl rfl rfl rfl
  | reset =>
    obtain rfl := Host.Outcome.next.inj h
    exact (resetWith_inv s.config).congr rfl rfl rfl rfl rfl

/-- Settles O14: the next invocation, listed or not, keeps the invariant by `coreStep_inv` and `invoke_inv`. -/
theorem everyStepKeepsTheInvariant : Obligations.EveryStepKeepsTheInvariant := by
  intro s t hi h
  cases hd : s.driver with
  | nil =>
    rw [step_of_driver_nil hd] at h
    exact coreStep_inv (s := s.markStepped) (hi.congr rfl rfl rfl rfl rfl) h
  | cons m rest =>
    rw [step_of_driver_cons hd] at h
    exact invoke_inv (s := s.setDriver rest) (hi.congr rfl rfl rfl rfl rfl) h

/-- Settles O15. The values of R39 are within the bounds and the memory lists nothing. -/
theorem resetMeetsTheInvariant : Obligations.ResetMeetsTheInvariant := resetWith_inv

theorem background_outside_font {c : Config} {a : Nat} (h : ¬(c.fontBase.val ≤ a ∧ a < c.fontBase.val + 80)) :
    Memory.background c a = 0 := dif_neg h

/-- Settles O51: memory after Reset lists nothing, so that each byte reads as the background. -/
theorem resetValues : Obligations.ResetValues := fun c =>
  ⟨fun r => Vector.getElem_replicate r.isLt, rfl, rfl, rfl, fun k => Vector.getElem_replicate k.isLt,
    pixel_blankScreen, rfl, rfl, rfl, rfl, Memory.background_glyph c, fun _ => background_outside_font⟩

/-- Settles O54: the listed invocation is the next one, and its meaning is that of the statement. -/
theorem inputSourceChangesOnlyTheKeypadFlags : Obligations.InputSourceChangesOnlyTheKeypadFlags :=
  fun _ _ _ hd => step_of_driver_cons hd

end Sys2Proof.Machine

/-! PROOFS. Memory (spec/20_memory.md): the order of the bytes of an opcode, the placing and fetching of a word,
blocks of bytes, the canonical form of memory and Load. -/

namespace Sys2Proof

/-! ## The bytes of an opcode -/

/-- R76 to R82: the class of an encoded instruction is its first field, and its selector and operands read back. -/
theorem decode_encode (i : Instr) : decode (encode i) = .instr i := by
  cases i with
  | clearScreen | ret => rfl
  | jump | call | loadI | jumpOffset | skipEqImm | skipNeImm | loadImm | addImm | rand | skipEqReg | skipNeReg
  | draw => simp [encode, decode]
  | copy | or | and | xor | add | sub | shr | subn | shl => simp [encode, decode, decodeClass8]
  | skipKeyPressed | skipKeyNotPressed => simp [encode, decode, decodeClassE]
  | getDelay | waitKey | setDelay | setSound | addI | fontAddr | storeBCD | regDump | regLoad =>
    simp [encode, decode, decodeClassF]

/-- Settles O4: the two bytes combine to the opcode, which decodes to its instruction. -/
theorem instructionBytesAreBigEndian : Obligations.InstructionBytesAreBigEndian := by
  intro i rest
  have hw : opcodeOf (highByte (encode i)) (lowByte (encode i)) = encode i := opcodeOf_bytes _
  refine ⟨?_, hw.symm⟩
  calc decodeBytes (encodeBytes i ++ rest)
      = decode (opcodeOf (highByte (encode i)) (lowByte (encode i))) := rfl
    _ = .instr i := by rw [hw, decode_encode]

end Sys2Proof

namespace Sys2Proof.Machine

variable {s : State}

/-! ## Fetching -/

theorem State.fetch_of_pc_le (h : s.pc.toNat ≤ 4094) :
    s.fetch = .ok (s.byteAt s.pc.toNat ++ s.byteAt (s.pc.toNat + 1)) := by
  rcases s.fetch_cases with ⟨-, hf⟩ | ⟨hp, -⟩
  · exact hf
  · omega

/-- R54, R55: a fetch reads the word whose two bytes, the high one first, were stored at PC. -/
theorem State.fetch_of_bytes_at_pc (w : Word) (h : s.pc.toNat ≤ 4094) :
    (s.setMem (s.mem.writeAll s.config s.pc.toNat [highByte w, lowByte w])).fetch = .ok w := by
  rw [State.fetch_of_pc_le, State.setMem_pc, State.byteAt_setMem_writeAll, State.byteAt_setMem_writeAll,
    dif_pos (by simp), dif_pos (by simp)]
  · simp only [Nat.sub_self, Nat.add_sub_cancel_left]
    exact congrArg Except.ok (opcodeOf_bytes w)
  · exact h

/-- A placed word is fetched whatever PC was: the address taken for it is one that a fetch succeeds at (R54). -/
theorem State.fetch_placeOpcode (s : State) (w : Word) : (s.placeOpcode w).fetch = .ok w := by
  refine State.fetch_of_bytes_at_pc (s := ((s.setFault none).setDriver []).setPc _) w ?_
  rw [State.setPc_pc]
  split
  · decide
  · omega

/-- A word given as a number of 16 bits is placed as it is. -/
theorem State.withFetchWord_toNat (s : State) (w : Word) : s.withFetchWord 16 w.toNat = s.placeOpcode w := by
  rw [State.withFetchWord, Nat.mod_eq_of_lt w.isLt, BitVec.ofNat_toNat, BitVec.setWidth_eq]

/-- Settles O6: placing sets the fault register and the list, and `fetch_placeOpcode` is the fetch. -/
theorem placedInstructionIsFetched : Obligations.PlacedInstructionIsFetched := by
  intro s w
  rw [State.withFetchWord_toNat]
  exact ⟨rfl, rfl, s.fetch_placeOpcode w⟩

/-- Settles O8: of the cases of a Step of a RUNNING core, the one with PC above 4094. -/
theorem fetchBeyondMemoryFaults : Obligations.FetchBeyondMemoryFaults := by
  intro s hd hf hp
  rw [step_of_driver_nil hd]
  rcases coreStep_running (s := s.markStepped) hf with ⟨-, hc⟩ | ⟨hle, -⟩
  · exact hc
  · exact absurd hp (Nat.not_lt.mpr hle)

/-! ## Blocks of bytes -/

variable {base n : Nat} {bs : List Byte}

theorem State.readBlock_of_fits (h : blockFits base n = true) :
    s.readBlock base n = .ok (s.mem.readAll s.config base n) := if_pos h

theorem State.readBlock_of_not_fits (h : blockFits base n = false) : s.readBlock base n = .error .addressFault :=
  if_neg (by simp [h])

theorem State.writeBlock_of_fits (h : blockFits base bs.length = true) :
    s.writeBlock base bs = .ok (s.setMem (s.mem.writeAll s.config base bs)) := if_pos h

theorem State.writeBlock_of_not_fits (h : blockFits base bs.length = false) :
    s.writeBlock base bs = .error .addressFault := if_neg (by simp [h])

/-- Replacing memory changes nothing else. -/
theorem onlyChanges_setMem (s : State) (m : Memory) : OnlyChanges [.mem] s (s.setMem m) := by
  simp [onlyChanges_iff]

/-- Settles O46: an access of one byte is a block of length 1, which fits when its address is at most 4095. -/
theorem memoryAccessesAreCheckedAndExact : Obligations.MemoryAccessesAreCheckedAndExact := by
  intro s a v
  refine ⟨fun ha => ?_, fun ha => ?_⟩
  · have hfits : blockFits a 1 = true := (blockFits_iff a 1).mpr (.inr ha)
    refine ⟨State.readBlock_of_fits hfits, _, State.writeBlock_of_fits hfits, ?_, fun b hb => ?_,
      onlyChanges_setMem s _⟩
    · exact Memory.read_write_same s.config a v s.mem
    · exact Memory.read_write_ne s.config v s.mem hb
  · have hfits : blockFits a 1 = false :=
      Bool.eq_false_iff.mpr fun h => by have := (blockFits_iff a 1).mp h; omega
    exact ⟨State.readBlock_of_not_fits hfits, State.writeBlock_of_not_fits hfits⟩

/-! ## The canonical form -/

/-- An address that no cell lists reads as the reset contents. -/
theorem Memory.read_of_not_listed (c : Config) {m : Memory} {a : Nat} (h : ∀ p ∈ m, p.1 ≠ a) :
    m.read c a = Memory.background c a := by
  induction m with
  | nil => rfl
  | cons q rest ih =>
    obtain ⟨hq, hrest⟩ := List.forall_mem_cons.mp h
    rw [Memory.read, if_neg hq, ih hrest]

/-- With the addresses strictly rising, a listed cell is the one that a read of its address finds. -/
theorem Memory.read_of_mem (c : Config) {m : Memory} (hs : m.Pairwise fun p q => p.1 < q.1) {p : Host.Cell}
    (h : p ∈ m) : m.read c p.1 = p.2 := by
  induction m with
  | nil => cases h
  | cons q rest ih =>
    obtain ⟨hq, hrest⟩ := List.pairwise_cons.mp hs
    rcases List.mem_cons.mp h with rfl | h
    · exact if_pos rfl
    · rw [Memory.read, if_neg (hq p h).ne, ih hrest h]

/-- What a canonical memory lists is told by its reads: the bytes that differ from the reset contents. -/
theorem Memory.mem_iff_read {c : Config} {m : Memory} (h : m.wf c) (p : Host.Cell) :
    p ∈ m ↔ m.read c p.1 = p.2 ∧ p.2 ≠ Memory.background c p.1 := by
  obtain ⟨hs, hcells⟩ := h
  refine ⟨fun hp => ⟨Memory.read_of_mem c hs hp, (hcells p hp).2⟩, fun ⟨hread, hne⟩ => ?_⟩
  by_contra hp
  have hnot : ∀ q ∈ m, q.1 ≠ p.1 := by
    intro q hq e
    have hq2 : q.2 = p.2 := by rw [← Memory.read_of_mem c hs hq, e, hread]
    exact hp (Prod.ext e hq2 ▸ hq)
  exact hne (hread ▸ Memory.read_of_not_listed c hnot)

/-- Settles O47: both list the same cells by `mem_iff_read`, and in the same order, that of the addresses. -/
theorem canonicalMemoriesThatReadAlikeAreEqual : Obligations.CanonicalMemoriesThatReadAlikeAreEqual := by
  intro c m n hm hn h
  have hirr : Std.Irrefl fun p q : Host.Cell => p.1 < q.1 := ⟨fun p => lt_irrefl p.1⟩
  have hanti : Std.Antisymm fun p q : Host.Cell => p.1 < q.1 := ⟨fun _ _ h h' => absurd h' (lt_asymm h)⟩
  refine List.Pairwise.eq_of_mem_iff hm.1 hn.1 fun p => ?_
  rw [Memory.mem_iff_read hm, Memory.mem_iff_read hn, h]

/-! ## Load, and what a step refuses -/

/-- Settles O53: the three cases of `load_cases`; the bytes of an accepted image by `byteAt_setMem_writeAll`. -/
theorem loadPlacesTheImage : Obligations.LoadPlacesTheImage := by
  intro s image rest hd
  have hstep : step s = load image (s.setDriver rest) := step_of_driver_cons hd
  rw [hstep]
  obtain ⟨hs, hl⟩ | ⟨hs, hlen, hl⟩ | ⟨hs, hlen, hl⟩ := load_cases image (s.setDriver rest) <;>
    rw [State.setDriver_stepped] at hs <;> rw [hl]
  · simp [hs]
  · exact ⟨fun _ h => absurd hlen (Nat.not_lt.mpr h), fun _ _ => rfl, by simp [hs]⟩
  · refine ⟨fun _ _ => ⟨_, rfl, by simp [onlyChanges_iff], rfl, fun k hk => ?_, fun a ha => ?_⟩,
      fun _ h => absurd h (Nat.not_lt.mpr hlen), by simp [hs]⟩
    · rw [State.byteAt_setMem_writeAll, dif_pos (by omega)]
      simp
    · rw [State.byteAt_setMem_writeAll, dif_neg ha, State.setDriver_byteAt]

/-- A Step answers a next state in every state. -/
theorem coreStep_total (s : State) : ∃ t, coreStep s = .next t := by
  by_cases hs : s.fault = none
  · obtain ⟨-, hc⟩ | ⟨-, w, -, -, ⟨r, -, hc⟩ | ⟨i, -, hc⟩⟩ := coreStep_running hs
    · exact ⟨_, hc⟩
    · exact ⟨_, hc⟩
    · obtain ⟨u, hu⟩ := exec_total i s
      exact ⟨u.commit, by rw [hc, hu]; rfl⟩
  · exact ⟨s, coreStep_halted hs⟩

/-- R64, R210: of the invocations, only a Load after the first Step is refused. -/
theorem invoke_total_or_late_load (m : Invocation) (s : State) : (∃ t, invoke m s = .next t) ∨
    (invoke m s = .refused .loadAfterFirstStep ∧ s.stepped = true ∧ ∃ image, m = .load image) := by
  cases m with
  | step => exact .inl (coreStep_total _)
  | load image =>
    obtain ⟨hs, hl⟩ | ⟨-, -, hl⟩ | ⟨-, -, hl⟩ := load_cases image s
    · exact .inr ⟨hl, hs, image, rfl⟩
    · exact .inl ⟨_, hl⟩
    · exact .inl ⟨_, hl⟩
  | tick | setKeys | reset => exact .inl ⟨_, rfl⟩

/-- Settles O55: a Step answers a next state, and a listed invocation is as `invoke_total_or_late_load` says. -/
theorem onlyALateLoadIsRefused : Obligations.OnlyALateLoadIsRefused := by
  intro s
  cases hd : s.driver with
  | nil => exact .inl (step_of_driver_nil hd ▸ coreStep_total _)
  | cons m rest =>
    rw [step_of_driver_cons hd]
    rcases invoke_total_or_late_load m (s.setDriver rest) with hn | ⟨hr, hs, image, rfl⟩
    · exact .inl hn
    · exact .inr ⟨hr, hs, image, rfl⟩

end Sys2Proof.Machine

/-! PROOFS. Encoding (spec/30_encoding.md): a word is the layout of its own fields, what the decoder can answer,
said once (`decode_cases`), and the decoder against the match/mask table of R80. -/

namespace Sys2Proof

open Machine

/-! ## A word from its fields -/

section

variable {w : Word} {op n : BitVec 4} {nn : Byte}

/-- R76, R77: a word is the layout of its fields OP and NNN. -/
theorem layNNN_nnnField (hop : opField w = op) : layNNN op (nnnField w) = w := by
  subst hop
  exact (BitVec.extractLsb'_append_extractLsb'_eq_extractLsb' rfl).trans (extractLsb'_whole w)

/-- R76, R77: a word is the layout of its fields OP, X and NN. -/
theorem layXNN_xField (hop : opField w = op) (hnn : nnField w = nn) : layXNN op (xField w) nn = w := by
  have hlow : (w.extractLsb' 8 4 ++ nnField w : BitVec (4 + 8)) = nnnField w :=
    BitVec.extractLsb'_append_extractLsb'_eq_extractLsb' rfl
  calc layXNN op (xField w) nn
      = layNNN op (w.extractLsb' 8 4 ++ nn : BitVec (4 + 8)) := rfl
    _ = w := by rw [← hnn, hlow, layNNN_nnnField hop]

/-- R76, R77: a word is the layout of its fields OP, X, Y and N. -/
theorem layXYN_xField_yField (hop : opField w = op) (hn : nField w = n) :
    layXYN op (xField w) (yField w) n = w := by
  have hlow : (w.extractLsb' 4 4 ++ nField w : BitVec (4 + 4)) = nnField w :=
    BitVec.extractLsb'_append_extractLsb'_eq_extractLsb' rfl
  calc layXYN op (xField w) (yField w) n
      = layXNN op (xField w) (w.extractLsb' 4 4 ++ n : BitVec (4 + 4)) := rfl
    _ = w := layXNN_xField hop (by rw [← hn, hlow])

end

/-! ## What the decoder can answer -/

/-- R87: which words each class rejects, by the values its fixed bits may have. -/
def Reject.Covers : Reject → Word → Prop
  | .class0, w => opField w = 0x0 ∧ w ∉ [0x00E0, 0x00EE]
  | .class5, w => opField w = 0x5 ∧ nField w ∉ [0x0]
  | .class8, w => opField w = 0x8 ∧ nField w ∉ [0x0, 0x1, 0x2, 0x3, 0x4, 0x5, 0x6, 0x7, 0xE]
  | .class9, w => opField w = 0x9 ∧ nField w ∉ [0x0]
  | .classE, w => opField w = 0xE ∧ nnField w ∉ [0x9E, 0xA1]
  | .classF, w => opField w = 0xF ∧ nnField w ∉ [0x07, 0x0A, 0x15, 0x18, 0x1E, 0x29, 0x33, 0x55, 0x65]
  | .truncated, _ => False

theorem decodeClass0_cases (w : Word) :
    (∃ i, decodeClass0 w = .instr i ∧ encode i = w) ∨
    (decodeClass0 w = .rejected .class0 ∧ w ∉ [0x00E0, 0x00EE]) := by
  unfold decodeClass0
  split
  · exact .inl ⟨_, rfl, Eq.symm ‹_›⟩
  · split
    · exact .inl ⟨_, rfl, Eq.symm ‹_›⟩
    · next hcls hret => exact .inr ⟨rfl, by simpa using ⟨hcls, hret⟩⟩

theorem decodeClass8_cases (n : BitVec 4) (x y : Reg) :
    (∃ i, decodeClass8 n x y = .instr i ∧ encode i = layXYN 0x8 x y n) ∨
    (decodeClass8 n x y = .rejected .class8 ∧ n ∉ [0x0, 0x1, 0x2, 0x3, 0x4, 0x5, 0x6, 0x7, 0xE]) := by
  unfold decodeClass8
  split
  case h_10 => exact .inr ⟨rfl, by simp_all [BitVec.toNat_eq]⟩
  all_goals next hn => exact .inl ⟨_, rfl, congrArg (layXYN 0x8 x y) (BitVec.eq_of_toNat_eq hn).symm⟩

theorem decodeClassE_cases (nn : Byte) (x : Reg) :
    (∃ i, decodeClassE nn x = .instr i ∧ encode i = layXNN 0xE x nn) ∨
    (decodeClassE nn x = .rejected .classE ∧ nn ∉ [0x9E, 0xA1]) := by
  unfold decodeClassE
  split
  case h_3 => exact .inr ⟨rfl, by simp_all [BitVec.toNat_eq]⟩
  all_goals next hn => exact .inl ⟨_, rfl, congrArg (layXNN 0xE x) (BitVec.eq_of_toNat_eq hn).symm⟩

theorem decodeClassF_cases (nn : Byte) (x : Reg) :
    (∃ i, decodeClassF nn x = .instr i ∧ encode i = layXNN 0xF x nn) ∨
    (decodeClassF nn x = .rejected .classF ∧
      nn ∉ [0x07, 0x0A, 0x15, 0x18, 0x1E, 0x29, 0x33, 0x55, 0x65]) := by
  unfold decodeClassF
  split
  case h_10 => exact .inr ⟨rfl, by simp_all [BitVec.toNat_eq]⟩
  all_goals next hn => exact .inl ⟨_, rfl, congrArg (layXNN 0xF x) (BitVec.eq_of_toNat_eq hn).symm⟩

/-- R82, R87: everything the decoder can answer: an instruction with the word as its opcode, or the reject of the
class whose fixed bits the word misses. -/
theorem decode_cases (w : Word) :
    (∃ i, decode w = .instr i ∧ encode i = w) ∨ (∃ r, decode w = .rejected r ∧ r.Covers w) := by
  unfold decode
  split
  case h_1 hop =>
    exact (decodeClass0_cases w).imp_right fun ⟨hd, hw⟩ => ⟨_, hd, BitVec.eq_of_toNat_eq hop, hw⟩
  case h_2 hop | h_3 hop | h_11 hop | h_12 hop =>
    exact .inl ⟨_, rfl, layNNN_nnnField (BitVec.eq_of_toNat_eq hop)⟩
  case h_4 hop | h_5 hop | h_7 hop | h_8 hop | h_13 hop =>
    exact .inl ⟨_, rfl, layXNN_xField (BitVec.eq_of_toNat_eq hop) rfl⟩
  case h_6 hop | h_10 hop =>
    split
    · next hn => exact .inl ⟨_, rfl, layXYN_xField_yField (BitVec.eq_of_toNat_eq hop) hn⟩
    · next hn => exact .inr ⟨_, rfl, BitVec.eq_of_toNat_eq hop, by simpa using hn⟩
  case h_9 hop =>
    have hop : opField w = 0x8 := BitVec.eq_of_toNat_eq hop
    exact (decodeClass8_cases (nField w) (xField w) (yField w)).imp
      (fun ⟨i, hd, he⟩ => ⟨i, hd, he.trans (layXYN_xField_yField hop rfl)⟩) fun ⟨hd, hn⟩ => ⟨_, hd, hop, hn⟩
  case h_14 hop => exact .inl ⟨_, rfl, layXYN_xField_yField (BitVec.eq_of_toNat_eq hop) rfl⟩
  case h_15 hop =>
    have hop : opField w = 0xE := BitVec.eq_of_toNat_eq hop
    exact (decodeClassE_cases (nnField w) (xField w)).imp
      (fun ⟨i, hd, he⟩ => ⟨i, hd, he.trans (layXNN_xField hop rfl)⟩) fun ⟨hd, hnn⟩ => ⟨_, hd, hop, hnn⟩
  case h_16 =>
    have hop : opField w = 0xF := by
      simp only [imp_false] at *
      bv_omega
    exact (decodeClassF_cases (nnField w) (xField w)).imp
      (fun ⟨i, hd, he⟩ => ⟨i, hd, he.trans (layXNN_xField hop rfl)⟩) fun ⟨hd, hnn⟩ => ⟨_, hd, hop, hnn⟩

/-- Settles O1: each field that the encoder lays out reads back, by `decode_encode`. -/
theorem decodeInvertsEncode : Obligations.DecodeInvertsEncode := decode_encode

/-- R79, R82: an instruction is decoded from its own opcode only. -/
theorem encode_of_decode {w : Word} {i : Instr} (h : decode w = .instr i) : encode i = w := by
  obtain ⟨j, hj, he⟩ | ⟨r, hr, -⟩ := decode_cases w
  · rw [h] at hj
    cases hj
    exact he
  · rw [h] at hr
    cases hr

/-- R87: a rejected word misses the fixed bits of its class. -/
theorem covers_of_decode {w : Word} {r : Reject} (h : decode w = .rejected r) : r.Covers w := by
  obtain ⟨i, hi, -⟩ | ⟨r', hr', hc⟩ := decode_cases w
  · rw [h] at hi
    cases hi
  · rw [h] at hr'
    cases hr'
    exact hc

/-- Settles O2: of the cases of the decoder, the one that answers an instruction. -/
theorem encodeInvertsDecode : Obligations.EncodeInvertsDecode := fun _ _ => encode_of_decode

/-- Settles O5: each opcode by the test of its word; two bytes combine to a word (R54). -/
theorem workedOpcodesDecode : Obligations.WorkedOpcodesDecode :=
  ⟨Tests.decode_6005, Tests.decode_700A, Tests.decode_2210, Tests.decode_00EE, Tests.decode_8014⟩

/-! ## The match/mask table -/

section

variable {w : Word} {r : OpcodeRow}

theorem OpcodeRow.selects_iff : r.selects w = true ↔ w &&& r.mask = r.pattern := beq_iff_eq

/-- A field that lies in the fixed part of a row is the same in each word that selects the row. -/
theorem OpcodeRow.field_eq_of_selects {start len : Nat} (h : r.selects w = true)
    (hmask : r.mask.extractLsb' start len = BitVec.allOnes len) :
    w.extractLsb' start len = r.pattern.extractLsb' start len := by
  rw [← OpcodeRow.selects_iff.mp h, BitVec.extractLsb'_and, hmask, BitVec.and_allOnes]

/-- R80: the field OP is fixed in every row. -/
theorem opField_mask_of_mem : ∀ r ∈ opcodeRows, opField r.mask = BitVec.allOnes 4 := by decide

/-- A word selects no row when a field of it has none of the values that the rows of its class fix there. -/
theorem rowsOf_eq_nil_of_field {start len : Nat} {op : BitVec 4} {values : List (BitVec len)}
    (hop : opField w = op) (hw : w.extractLsb' start len ∉ values)
    (hrows : ∀ r ∈ opcodeRows, opField r.pattern = op →
      r.mask.extractLsb' start len = BitVec.allOnes len ∧ r.pattern.extractLsb' start len ∈ values) :
    rowsOf w = [] := by
  refine List.filter_eq_nil_iff.mpr fun r hr hsel => hw ?_
  have hclass : opField r.pattern = op :=
    (OpcodeRow.field_eq_of_selects hsel (opField_mask_of_mem r hr)).symm.trans hop
  obtain ⟨hmask, hval⟩ := hrows r hr hclass
  exact OpcodeRow.field_eq_of_selects hsel hmask ▸ hval

/-- R87: a word that misses the fixed bits of its class selects no row. -/
theorem rowsOf_eq_nil_of_covers {r : Reject} (h : r.Covers w) : rowsOf w = [] := by
  cases r with
  | class0 =>
    obtain ⟨hop, hword⟩ := h
    rw [← extractLsb'_whole w] at hword
    exact rowsOf_eq_nil_of_field hop hword (by decide)
  | class5 | class8 | class9 | classE | classF =>
    obtain ⟨hop, hselector⟩ := h
    exact rowsOf_eq_nil_of_field hop hselector (by decide)
  | truncated => exact h.elim

/-- R80: no two rows have a word in common, since their patterns differ where both are fixed. -/
theorem opcodeRows_disjoint :
    opcodeRows.Pairwise fun r r' => r.pattern &&& r'.mask ≠ r'.pattern &&& r.mask := by decide

/-- R79: a word selects one row at most. -/
theorem rowsOf_eq_singleton (hr : r ∈ opcodeRows) (hsel : r.selects w = true) : rowsOf w = [r] := by
  have hmem : r ∈ rowsOf w := List.mem_filter.mpr ⟨hr, hsel⟩
  have hdis : (rowsOf w).Pairwise _ := opcodeRows_disjoint.filter _
  have hall : ∀ r' ∈ rowsOf w, w &&& r'.mask = r'.pattern :=
    fun r' h => OpcodeRow.selects_iff.mp (List.mem_filter.mp h).2
  match hrows : rowsOf w with
  | [] => simp [hrows] at hmem
  | [r'] =>
    rw [hrows, List.mem_singleton] at hmem
    rw [hmem]
  | r₁ :: r₂ :: rest =>
    rw [hrows] at hdis hall
    have h₁ : w &&& r₁.mask = r₁.pattern := hall r₁ (by simp)
    have h₂ : w &&& r₂.mask = r₂.pattern := hall r₂ (by simp)
    refine absurd ?_ (List.rel_of_pairwise_cons hdis List.mem_cons_self)
    rw [← h₁, ← h₂]
    ac_rfl

open Laws in
/-- R80: the opcode of an instruction selects the row of its mnemonic. -/
theorem encode_selects_row : ∀ i, EncodingRow.Statement i
  | .clearScreen => EncodingRow.clearScreen
  | .ret => EncodingRow.ret
  | .jump nnn => EncodingRow.jump nnn
  | .call nnn => EncodingRow.call nnn
  | .skipEqImm x nn => EncodingRow.skipEqImm x nn
  | .skipNeImm x nn => EncodingRow.skipNeImm x nn
  | .skipEqReg x y => EncodingRow.skipEqReg x y
  | .loadImm x nn => EncodingRow.loadImm x nn
  | .addImm x nn => EncodingRow.addImm x nn
  | .copy x y => EncodingRow.copy x y
  | .or x y => EncodingRow.or x y
  | .and x y => EncodingRow.and x y
  | .xor x y => EncodingRow.xor x y
  | .add x y => EncodingRow.add x y
  | .sub x y => EncodingRow.sub x y
  | .shr x y => EncodingRow.shr x y
  | .subn x y => EncodingRow.subn x y
  | .shl x y => EncodingRow.shl x y
  | .skipNeReg x y => EncodingRow.skipNeReg x y
  | .loadI nnn => EncodingRow.loadI nnn
  | .jumpOffset nnn => EncodingRow.jumpOffset nnn
  | .rand x nn => EncodingRow.rand x nn
  | .draw x y n => EncodingRow.draw x y n
  | .skipKeyPressed x => EncodingRow.skipKeyPressed x
  | .skipKeyNotPressed x => EncodingRow.skipKeyNotPressed x
  | .getDelay x => EncodingRow.getDelay x
  | .waitKey x => EncodingRow.waitKey x
  | .setDelay x => EncodingRow.setDelay x
  | .setSound x => EncodingRow.setSound x
  | .addI x => EncodingRow.addI x
  | .fontAddr x => EncodingRow.fontAddr x
  | .storeBCD x => EncodingRow.storeBCD x
  | .regDump x => EncodingRow.regDump x
  | .regLoad x => EncodingRow.regLoad x

/-- R82: a decoded word selects the row of its instruction. -/
theorem selects_row_of_decode {i : Instr} (h : decode w = .instr i) :
    ∃ r ∈ opcodeRows, r.mnemonic = i.mnemonic ∧ r.selects w = true :=
  encode_of_decode h ▸ encode_selects_row i

end

/-- Settles O3: a decoded word selects the row of its instruction, and no other since the rows are disjoint; a
rejected word misses the fixed bits of its class. -/
theorem decodeFollowsOpcodeTable : Obligations.DecodeFollowsOpcodeTable := by
  intro w
  cases h : decode w with
  | instr i =>
    obtain ⟨r, hr, hname, hsel⟩ := selects_row_of_decode h
    simp [rowsOf_eq_singleton hr hsel, hname]
  | rejected r => exact rowsOf_eq_nil_of_covers (covers_of_decode h)

/-- Settles O9: of the cases of a Step of a RUNNING core, the one whose word is rejected, since a decoded word
selects a row. -/
theorem illegalOpcodeFaults : Obligations.IllegalOpcodeFaults := by
  intro s hd hf hp hill
  rw [step_of_driver_nil hd]
  obtain ⟨hgt, -⟩ | ⟨-, w, -, rfl, ⟨r, -, hc⟩ | ⟨i, hi, -⟩⟩ := coreStep_running (s := s.markStepped) hf
  · exact absurd hp (Nat.not_le.mpr hgt)
  · exact hc
  · obtain ⟨r, hr, -, hsel⟩ := selects_row_of_decode hi
    exact absurd hsel (List.any_eq_false.mp hill r hr)

end Sys2Proof

/-! PROOFS. The Step cycle (spec/40_step_cycle.md): the decoded instruction and COMMIT, the keypad sample, the Step of
a HALTED core and runs of it, and the idle loop. -/

namespace Sys2Proof.Machine

open Statements

variable {s t u : State} {i : Instr}

/-! ## The Step of a RUNNING core, and COMMIT -/

/-- R100, R103: of the cases of a Step of a RUNNING core, the one whose word decodes. -/
theorem coreStep_of_decode (hf : s.fault = none) (hp : s.pc.toNat ≤ 4094)
    (hd : decode (s.byteAt s.pc.toNat ++ s.byteAt (s.pc.toNat + 1)) = .instr i) :
    coreStep s = commitOutcome (exec i s) := by
  obtain ⟨hgt, -⟩ | ⟨-, w, -, rfl, ⟨r, hr, -⟩ | ⟨j, hj, hc⟩⟩ := coreStep_running hf
  · exact absurd hp (Nat.not_le.mpr hgt)
  · rw [hd] at hr
    cases hr
  · rw [hd] at hj
    cases hj
    exact hc

/-- Settles O7: a listed Step is the Step of the state with that entry taken off the list. -/
theorem stepRunsTheDecodedInstruction : Obligations.StepRunsTheDecodedInstruction := by
  intro s i hf hp hd run
  have hrun (u : State) : commitOutcome (exec i u.markStepped) = run u := rfl
  constructor
  · intro hnil
    rw [step_of_driver_nil hnil, coreStep_of_decode (s := s.markStepped) hf hp hd]
    exact hrun s
  · intro rest hcons
    rw [step_of_driver_cons hcons, invoke, coreStep_of_decode (s := (s.setDriver rest).markStepped) hf hp hd]
    exact hrun (s.setDriver rest)

/-- R106: COMMIT reads the keypad flags and does not write them. -/
@[simp] theorem State.commit_keys (s : State) : s.commit.keys = s.keys := by
  rcases s.commit_cases with ⟨-, hc⟩ | ⟨-, hc⟩ <;> simp [hc]

/-- R106: after COMMIT a RUNNING core has sampled its keypad flags. -/
theorem State.commit_keyPrev_of_running (h : s.commit.fault = none) : s.commit.keyPrev = s.keys := by
  rcases s.commit_cases with ⟨-, hc⟩ | ⟨hf, hc⟩
  · rw [hc, State.setKeyPrev_keyPrev]
  · rw [hc] at h
    exact absurd h hf

/-- R36: no instruction writes the keypad flags. -/
theorem exec_keys (h : exec i s = .next t) : t.keys = s.keys :=
  exec_onlyChanges h .keys (by cases i <;> simp [Instr.writes])

/-- R106, R110, of each case of a Step: the faults and a HALTED core leave the core not RUNNING, COMMIT samples. -/
theorem coreStep_samples_keys (h : coreStep s = .next t) :
    t.keys = s.keys ∧ (t.fault = none → t.keyPrev = s.keys) := by
  by_cases hs : s.fault = none
  · obtain ⟨-, hc⟩ | ⟨-, w, -, -, ⟨r, -, hc⟩ | ⟨i, -, hc⟩⟩ := coreStep_running hs <;> rw [hc] at h
    · cases h
      simp
    · cases h
      simp
    · obtain ⟨u, hu, rfl⟩ := commitOutcome_next h
      exact ⟨u.commit_keys.trans (exec_keys hu), fun hr => (State.commit_keyPrev_of_running hr).trans (exec_keys hu)⟩
  · rw [coreStep_halted hs] at h
    cases h
    exact ⟨rfl, fun hr => absurd hr hs⟩

/-- Settles O12: with nothing listed the step is a Step, and `coreStep_samples_keys` says what it does. -/
theorem completedStepSamplesTheKeypad : Obligations.CompletedStepSamplesTheKeypad := by
  intro s t hd h
  rw [step_of_driver_nil hd] at h
  exact coreStep_samples_keys (s := s.markStepped) h

/-! ## The Step of a HALTED core, and runs from one -/

/-- Settles O10: with nothing listed the step is a Step, and a HALTED core stays as it is. -/
theorem haltedStepChangesNothing : Obligations.HaltedStepChangesNothing := by
  intro s hd hf
  rw [step_of_driver_nil hd]
  exact coreStep_halted hf

theorem OnlyChanges.refl (l : List Part) (s : State) : OnlyChanges l s s := by
  simp [onlyChanges_iff]

theorem OnlyChanges.mono {l l' : List Part} (h : OnlyChanges l s t) (hl : l ⊆ l') : OnlyChanges l' s t :=
  fun p hp => h p fun hm => hp (hl hm)

theorem Part.same.trans {p : Part} (hst : p.same s t) (htu : p.same t u) : p.same s u := by
  cases p with
  | stack => exact ⟨htu.1.trans hst.1, htu.2.trans hst.2⟩
  | mem => exact fun a => (htu a).trans (hst a)
  | _ => exact Eq.trans htu hst

/-- Frames compose along a run. -/
theorem OnlyChanges.trans {l : List Part} (hst : OnlyChanges l s t) (htu : OnlyChanges l t u) : OnlyChanges l s u :=
  fun p hp => (hst p hp).trans (htu p hp)

/-- R107, R218, R220: what each invocation but Reset and Load does to a HALTED core. -/
theorem invoke_onlyChanges_of_halted {m : Invocation} (hf : s.fault ≠ none) (hreset : m ≠ .reset)
    (hload : ∀ image, m ≠ .load image) (h : invoke m s = .next t) :
    OnlyChanges [.dt, .st, .keys, .stepped] s t := by
  cases m with
  | step =>
    rw [invoke, coreStep_halted (s := s.markStepped) hf] at h
    cases h
    simp [onlyChanges_iff]
  | tick | setKeys =>
    obtain rfl := Host.Outcome.next.inj h
    simp [onlyChanges_iff]
  | load image => exact absurd rfl (hload image)
  | reset => exact absurd rfl hreset

/-- What one step of a HALTED core can do when neither Reset nor Load is listed; it takes one entry off the list. -/
theorem step_onlyChanges_of_halted (hf : s.fault ≠ none) (hreset : .reset ∉ s.driver)
    (hload : ∀ image, .load image ∉ s.driver) (h : step s = .next t) :
    OnlyChanges [.dt, .st, .keys, .driver, .stepped] s t ∧ t.driver = s.driver.tail := by
  cases hd : s.driver with
  | nil =>
    rw [step_of_driver_nil hd] at h
    have hm := invoke_onlyChanges_of_halted (m := .step) hf (by simp) (by simp) h
    exact ⟨hm.mono (by simp), Eq.trans (hm .driver (by simp)) hd⟩
  | cons m rest =>
    rw [step_of_driver_cons hd] at h
    rw [hd] at hreset hload
    have hm := invoke_onlyChanges_of_halted (s := s.setDriver rest) hf (List.ne_of_not_mem_cons hreset).symm
      (fun image => (List.ne_of_not_mem_cons (hload image)).symm) h
    have htake : OnlyChanges [.dt, .st, .keys, .driver, .stepped] s (s.setDriver rest) := by simp [onlyChanges_iff]
    exact ⟨htake.trans (hm.mono (by simp)), hm .driver (by simp)⟩

/-- A run of one step more is a step and the run from where it leads. -/
theorem run_succ_eq_next {M : Host.Core} {n : Nat} {s t : M.State} :
    M.run (n + 1) s = .next t ↔ ∃ u, M.step s = .next u ∧ M.run n u = .next t := by
  rw [Host.Core.run]
  cases M.step s <;> simp

/-- Settles O17, by induction on the number of steps: the first step leaves the core HALTED and only takes an entry
off the list, and the frames compose. -/
theorem haltedRunsKeepTheFirstCause : Obligations.HaltedRunsKeepTheFirstCause := by
  intro n
  induction n with
  | zero =>
    intro s t _ _ _ h
    cases h
    exact .refl _ s
  | succ n ih =>
    intro s t hf hreset hload h
    obtain ⟨u, hu, ht⟩ := run_succ_eq_next.mp h
    obtain ⟨hsu, hdriver⟩ := step_onlyChanges_of_halted hf hreset hload hu
    have hfault : u.fault = s.fault := hsu .fault (by simp)
    exact hsu.trans <| ih u t (hfault ▸ hf) (fun hm => hreset (List.mem_of_mem_tail (hdriver ▸ hm)))
      (fun image hm => hload image (List.mem_of_mem_tail (hdriver ▸ hm))) ht

/-! ## The idle loop -/

/-- U1: a word written as its class with NNN is format NNN of R77. -/
theorem wordNNN_eq_layNNN (op : BitVec 4) (nnn : BitVec 12) : wordNNN (op ++ 0#12) nnn = layNNN op nnn := by
  have hnnn : nnn.setWidth 16 = (0#4 ++ nnn : BitVec 16) := BitVec.setWidth_eq_append (by decide)
  rw [wordNNN, hnnn, BitVec.or_append, BitVec.or_zero, BitVec.zero_or, layNNN]

/-- R111: the core is RUNNING with nothing listed, and the word at PC is `jump` to PC itself. -/
structure State.AtSelfJump (s : State) : Prop where
  driver_nil : s.driver = []
  running : s.fault = none
  pc_in_memory : s.pc.toNat ≤ 4094
  word_at_pc : s.byteAt s.pc.toNat ++ s.byteAt (s.pc.toNat + 1) = encode (.jump (s.pc.setWidth 12))

/-- What any positive number of Steps of an idle loop leaves: the keypad flags are sampled (R106). -/
def State.idled (s : State) : State := s.markStepped.setKeyPrev s.keys

/-- R111, R122: one Step of the idle loop; its jump writes the PC that was there. -/
theorem step_of_atSelfJump (h : s.AtSelfJump) : step s = .next s.idled := by
  obtain ⟨hd, hf, hp, hw⟩ := h
  have hpc : zext16 (s.pc.setWidth 12) = s.pc := by
    apply BitVec.eq_of_toNat_eq
    rw [zext16_toNat, BitVec.toNat_setWidth]
    omega
  rw [step_of_driver_nil hd, coreStep_of_decode (s := s.markStepped) hf hp (hw ▸ decode_encode _)]
  have hjump : exec (.jump (s.pc.setWidth 12)) s.markStepped = .next s.markStepped :=
    congrArg (fun a => Host.Outcome.next (s.markStepped.setPc a)) hpc
  rw [hjump]
  exact congrArg Host.Outcome.next (if_pos hf)

theorem State.AtSelfJump.idled (h : s.AtSelfJump) : s.idled.AtSelfJump :=
  ⟨h.driver_nil, h.running, h.pc_in_memory, h.word_at_pc⟩

/-- R111: any positive number of Steps of the idle loop leaves what one of them leaves. -/
theorem run_of_atSelfJump (h : s.AtSelfJump) (n : Nat) : Host.Core.run core (n + 1) s = .next s.idled := by
  induction n generalizing s with
  | zero => exact run_succ_eq_next.mpr ⟨s.idled, step_of_atSelfJump h, rfl⟩
  | succ n ih => exact run_succ_eq_next.mpr ⟨s.idled, step_of_atSelfJump h, ih h.idled⟩

theorem runsWithoutFault_of_atSelfJump (h : s.AtSelfJump) (n : Nat) : RunsWithoutFault n s := by
  induction n generalizing s with
  | zero => exact h.running
  | succ n ih => exact ⟨h.running, s.idled, step_of_atSelfJump h, ih h.idled⟩

/-- Settles O56: the word of the statement is the encoding of the jump, so that the core is at a self jump. -/
theorem jumpToSelfIsAnIdleLoop : Obligations.JumpToSelfIsAnIdleLoop := by
  intro s nnn n hd hf hp hpc hw
  have hnnn : s.pc.setWidth 12 = nnn := by
    rw [hpc]
    apply BitVec.eq_of_toNat_eq
    simp
  have h : s.AtSelfJump := ⟨hd, hf, hp, by rw [hw, hnnn]; exact wordNNN_eq_layNNN 0x1 nnn⟩
  exact ⟨run_of_atSelfJump h n, runsWithoutFault_of_atSelfJump h n⟩

end Sys2Proof.Machine

/-! PROOFS. Control flow (spec/41_control_flow.md): the jumps and the skips, which set PC and change nothing else, and
the call stack. The words of the "Encoding:" lines are the layouts of R77. -/

namespace Sys2Proof.Machine

open Statements

variable {i : Instr} {s : State}

/-! ## The words of the statements -/

/-- A word decodes to the instruction that it is the opcode of. -/
theorem decode_of_eq_encode {w : Word} (h : w = encode i) : decode w = .instr i := h ▸ decode_encode i

/-- R76: a register number as a word is its field. -/
theorem ofNat_val_eq_regField (r : Reg) : BitVec.ofNat 16 r.val = (regField r).setWidth 16 :=
  BitVec.ofNat_toNat 16 (regField r)

/-- R77: the fields X and NN below a class. -/
theorem atX_or_setWidth (x : Reg) (nn : Byte) :
    atX x ||| nn.setWidth 16 = (regField x ++ nn : BitVec 12).setWidth 16 := by
  rw [atX, ofNat_val_eq_regField]
  exact BitVec.setWidth_append_eq_shiftLeft_setWidth_or.symm

/-- R77: the fields Y and N below the field X. -/
theorem atY_or_setWidth (y : Reg) (n : BitVec 4) :
    atY y ||| n.setWidth 16 = (regField y ++ n : BitVec 8).setWidth 16 := by
  rw [atY, ofNat_val_eq_regField]
  exact BitVec.setWidth_append_eq_shiftLeft_setWidth_or.symm

/-- U1: a word written as its class with X and NN is format XNN of R77. -/
theorem wordXNN_eq_layXNN (op : BitVec 4) (x : Reg) (nn : Byte) : wordXNN (op ++ 0#12) x nn = layXNN op x nn := by
  rw [wordXNN, BitVec.or_assoc, atX_or_setWidth]
  exact wordNNN_eq_layNNN op _

/-- U1: a word written as its class with X, Y and N is format XYN of R77. -/
theorem wordXYN_eq_layXYN (op : BitVec 4) (x y : Reg) (n : BitVec 4) :
    wordXYN (op ++ 0#12) x y n = layXYN op x y n := by
  rw [wordXYN, BitVec.or_assoc, atY_or_setWidth]
  exact wordXNN_eq_layXNN op x _

/-- U1: a word written as its class and selector with X and Y is format XY of R77. -/
theorem wordXY_eq_layXYN (op : BitVec 4) (x y : Reg) (n : BitVec 4) :
    wordXY (op ++ 0#12 ||| n.setWidth 16) x y = layXYN op x y n := by
  rw [← wordXYN_eq_layXYN, wordXY, wordXYN]
  ac_rfl

/-! ## Jumps and skips -/

theorem setsPc_setPc {v target : Word} (h : v = target) : SetsPc (.next (s.setPc v)) s target :=
  ⟨s.setPc v, rfl, h, by simp [onlyChanges_iff]⟩

/-- R25: the skip on equality. -/
theorem setsPc_skipIf_beq (s : State) (a b : Byte) :
    SetsPc (.next (s.skipIf (a == b))) s (if a = b then s.pc + 4 else s.pc + 2) :=
  setsPc_setPc (by simp)

/-- R25: the skip on inequality. -/
theorem setsPc_skipIf_bne (s : State) (a b : Byte) :
    SetsPc (.next (s.skipIf (a != b))) s (if a = b then s.pc + 2 else s.pc + 4) :=
  setsPc_setPc (by simp)

theorem zext16_eq_ofNat (nnn : BitVec 12) : zext16 nnn = BitVec.ofNat 16 nnn.toNat :=
  (BitVec.ofNat_toNat 16 nnn).symm

/-- R128: the sum is not reduced modulo 4096 (D9). -/
theorem offsetTarget_eq_ofNat (nnn : BitVec 12) (a : Byte) :
    offsetTarget nnn a = BitVec.ofNat 16 (nnn.toNat + a.toNat) := by
  rw [offsetTarget, zext16_eq_ofNat, BitVec.ofNat_add, BitVec.ofNat_toNat 16 a]

/-- Settles O30: both words are format NNN of R77, and both instructions only set PC. -/
theorem jumpsSetTheProgramCounter : Obligations.JumpsSetTheProgramCounter := fun nnn s =>
  ⟨⟨decode_of_eq_encode (wordNNN_eq_layNNN 0x1 nnn), setsPc_setPc (zext16_eq_ofNat nnn)⟩,
    ⟨decode_of_eq_encode (wordNNN_eq_layNNN 0xB nnn), setsPc_setPc (offsetTarget_eq_ofNat nnn (s.reg 0))⟩⟩

/-- Settles O34: both words are format XNN of R77, and both instructions are a skip on a comparison. -/
theorem immediateSkipsCompareWithTheImmediate : Obligations.ImmediateSkipsCompareWithTheImmediate := fun x nn s =>
  ⟨⟨decode_of_eq_encode (wordXNN_eq_layXNN 0x3 x nn), setsPc_skipIf_beq s (s.reg x) nn⟩,
    ⟨decode_of_eq_encode (wordXNN_eq_layXNN 0x4 x nn), setsPc_skipIf_bne s (s.reg x) nn⟩⟩

/-- Settles O35: both words are format XY of R77, and both instructions are a skip on a comparison. -/
theorem registerSkipsCompareTwoRegisters : Obligations.RegisterSkipsCompareTwoRegisters := fun x y s =>
  ⟨⟨decode_of_eq_encode (wordXY_eq_layXYN 0x5 x y 0x0), setsPc_skipIf_beq s (s.reg x) (s.reg y)⟩,
    ⟨decode_of_eq_encode (wordXY_eq_layXYN 0x9 x y 0x0), setsPc_skipIf_bne s (s.reg x) (s.reg y)⟩⟩

/-! ## Whether an instruction is ready -/

/-- An instruction whose check holds completes. -/
theorem exec_of_ready (h : i.ready s = true) : ∃ t, exec i s = .next t ∧ i.CompletesTo s t := by
  obtain ⟨t, ht⟩ := exec_total i s
  rcases exec_cases ht with ⟨hr, -⟩ | ⟨-, hc⟩
  · rw [h] at hr
    cases hr
  · exact ⟨t, ht, hc⟩

/-- R217: an instruction whose check fails raises its one fault. -/
theorem exec_of_not_ready (h : i.ready s = false) : exec i s = .next (s.setFault i.executeFault) := by
  obtain ⟨t, ht⟩ := exec_total i s
  rcases exec_cases ht with ⟨-, rfl⟩ | ⟨hr, -⟩
  · exact ht
  · rw [h] at hr
    cases hr

/-! ## The call stack -/

/-- Settles O31: a frame is left when SP is below 16, and the push then sets entry SP only. -/
theorem callPushesTheReturnAddress : Obligations.CallPushesTheReturnAddress := by
  intro nnn s
  refine ⟨decode_of_eq_encode (wordNNN_eq_layNNN 0x2 nnn), fun hs => ?_, fun hs => ?_⟩
  · obtain ⟨t, ht, hc⟩ := exec_of_ready (i := .call nnn) (decide_eq_true hs)
    have hframe : OnlyChanges [.pc, .stack] s t := (onlyChanges_of_completesTo hc).mono (by simp [Instr.writes])
    obtain ⟨_, rfl⟩ := hc
    refine ⟨_, ht, zext16_eq_ofNat nnn, rfl, hframe, fun k => ?_⟩
    simp [Vector.getElem_set, eq_comm]
  · exact exec_of_not_ready (i := .call nnn) (decide_eq_false (by omega))

/-- Settles O32: an entry is there to pop when SP is above 0, and the pop leaves every entry. -/
theorem returnPopsTheTopEntry : Obligations.ReturnPopsTheTopEntry := by
  intro s
  refine ⟨decode_encode .ret, fun k hk => ?_, fun hs => ?_⟩
  · obtain ⟨t, ht, hc⟩ := exec_of_ready (s := s) (i := .ret) (decide_eq_true (by omega))
    have hframe : OnlyChanges [.pc, .stack] s t := (onlyChanges_of_completesTo hc).mono (by simp [Instr.writes])
    obtain rfl := hc
    exact ⟨_, ht, by simp [hk], by simp [hk], hframe, fun _ _ => rfl⟩
  · exact exec_of_not_ready (i := .ret) (decide_eq_false (by omega))

/-- Settles O33: the return pops the entry that the call pushed, which stands above the frames in use before. -/
theorem returnUndoesCall : Obligations.ReturnUndoesCall := by
  intro nnn s hs
  obtain ⟨-, call, -⟩ := callPushesTheReturnAddress nnn s
  obtain ⟨t, ht, -, hsp, hframe, hstack⟩ := call hs
  obtain ⟨-, ret, -⟩ := returnPopsTheTopEntry t
  obtain ⟨u, hu, hpc, husp, huframe, hustack⟩ := ret ⟨s.sp.val, hs⟩ hsp
  refine ⟨t, u, ht, hu, ?_, Fin.ext husp, hframe.trans huframe, fun k hk => ?_⟩
  · rw [hpc, hstack, if_pos rfl]
  · rw [hustack k hk, hstack, if_neg hk.ne]

end Sys2Proof.Machine

/-! PROOFS. Register, ALU and random instructions (spec/42_arith_logic.md): each writes its destination and goes on to
the next instruction, five of them with a flag in VF that the result overwrites (R147). -/

namespace Sys2Proof.Machine

open Statements

variable {s : State} {x : Reg}

/-! ## What one register write, and a flag below it, leave -/

/-- R104: an instruction that writes one register and advances. -/
theorem setsRegister_setReg {v : Byte} {result : Nat} (hv : v.toNat = result) :
    SetsRegister (.next (s.setReg x v).advance) s x result := by
  refine ⟨(s.setReg x v).advance, rfl, rfl, by simp [onlyChanges_iff], ?_, fun r hr => ?_⟩
  · rw [State.advance_reg, State.reg_setReg_same, hv]
  · rw [State.advance_reg, State.reg_setReg_ne s v hr]

/-- R104, R147: an instruction that writes a flag and a result and advances. -/
theorem setsFlagAndRegister_setFlagThenResult {f v : Byte} {flag result : Nat} (hf : f.toNat = flag)
    (hv : v.toNat = result) :
    SetsFlagAndRegister (.next (s.setFlagThenResult x f v).advance) s x flag result := by
  refine ⟨(s.setFlagThenResult x f v).advance, rfl, rfl, by simp [onlyChanges_iff], ?_, fun hx => ?_,
    fun r hr hvf => ?_⟩
  · rw [State.advance_reg, State.reg_setFlagThenResult_dest, hv]
  · rw [State.advance_reg, State.reg_setFlagThenResult_flag s f v hx, hf]
  · rw [State.advance_reg, State.reg_setFlagThenResult_other s f v hr hvf]

/-- R149, R151: a subtraction of either operand order. -/
theorem setsFlagAndRegister_difference (s : State) (x : Reg) (minuend subtrahend : Byte) :
    SetsFlagAndRegister
      (.next (s.setFlagThenResult x (noBorrow minuend subtrahend) (diffByte minuend subtrahend)).advance) s x
      (if minuend.toNat ≥ subtrahend.toNat then 1 else 0) ((minuend.toNat + 256 - subtrahend.toNat) % 256) :=
  setsFlagAndRegister_setFlagThenResult (noBorrow_toNat minuend subtrahend) (diffByte_toNat minuend subtrahend)

/-! ## The instructions -/

/-- Settles O21: the word is format XNN of R77, and NN is written as it is. -/
theorem loadImmediateWritesItsRegister : Obligations.LoadImmediateWritesItsRegister := fun x nn _ =>
  ⟨decode_of_eq_encode (wordXNN_eq_layXNN 0x6 x nn), setsRegister_setReg rfl⟩

/-- Settles O22: the word is format XNN of R77, and the truncated sum is written with no flag. -/
theorem addImmediateWrapsWithoutFlag : Obligations.AddImmediateWrapsWithoutFlag := fun x nn s =>
  ⟨decode_of_eq_encode (wordXNN_eq_layXNN 0x7 x nn), setsRegister_setReg (sumByte_toNat (s.reg x) nn)⟩

/-- Settles O23: the words are format XYN of R77, and a bitwise result has the bits of the numbers. -/
theorem copyAndLogicalInstructionsWriteNoFlag : Obligations.CopyAndLogicalInstructionsWriteNoFlag := fun x y s =>
  ⟨⟨decode_of_eq_encode (wordXY_eq_layXYN 0x8 x y 0x0), setsRegister_setReg rfl⟩,
    ⟨decode_of_eq_encode (wordXY_eq_layXYN 0x8 x y 0x1), setsRegister_setReg (BitVec.toNat_or (s.reg x) (s.reg y))⟩,
    ⟨decode_of_eq_encode (wordXY_eq_layXYN 0x8 x y 0x2), setsRegister_setReg (BitVec.toNat_and (s.reg x) (s.reg y))⟩,
    ⟨decode_of_eq_encode (wordXY_eq_layXYN 0x8 x y 0x3), setsRegister_setReg (BitVec.toNat_xor (s.reg x) (s.reg y))⟩⟩

/-- Settles O24: the word is format XYN of R77, and the flag of R148 stands below the sum. -/
theorem addSetsFlagWhenThereIsNoCarry : Obligations.AddSetsFlagWhenThereIsNoCarry := fun x y s =>
  ⟨decode_of_eq_encode (wordXY_eq_layXYN 0x8 x y 0x4),
    setsFlagAndRegister_setFlagThenResult (noCarry_toNat (s.reg x) (s.reg y)) (sumByte_toNat (s.reg x) (s.reg y))⟩

/-- Settles O25: both words are format XYN of R77, and the two instructions differ in the order of the operands. -/
theorem subtractionsSetFlagWhenThereIsNoBorrow : Obligations.SubtractionsSetFlagWhenThereIsNoBorrow := fun x y s =>
  ⟨⟨decode_of_eq_encode (wordXY_eq_layXYN 0x8 x y 0x5), setsFlagAndRegister_difference s x (s.reg x) (s.reg y)⟩,
    ⟨decode_of_eq_encode (wordXY_eq_layXYN 0x8 x y 0x7), setsFlagAndRegister_difference s x (s.reg y) (s.reg x)⟩⟩

/-- Settles O26: both words are format XYN of R77, and the bit shifted out stands below the shifted byte. -/
theorem shiftsUseOnlyTheirFirstRegister : Obligations.ShiftsUseOnlyTheirFirstRegister := fun x y s =>
  ⟨⟨decode_of_eq_encode (wordXY_eq_layXYN 0x8 x y 0x6),
      setsFlagAndRegister_setFlagThenResult (shrOut_toNat (s.reg x)) (shrByte_toNat (s.reg x))⟩,
    ⟨decode_of_eq_encode (wordXY_eq_layXYN 0x8 x y 0xE),
      setsFlagAndRegister_setFlagThenResult (shlOut_toNat (s.reg x)) (shlByte_toNat (s.reg x))⟩⟩

/-- Settles O27: the word is format XNN of R77, and the destination gets the free byte under the mask, whose other
bits are 0. -/
theorem randIsADrawnByteUnderTheMask : Obligations.RandIsADrawnByteUnderTheMask := by
  intro x nn s
  have hdest : (s.setReg x (Config.freeRandom s.draws &&& nn)).drawn.advance.reg x = Config.freeRandom s.draws &&& nn :=
    s.reg_setReg_same x _
  refine ⟨decode_of_eq_encode (wordXNN_eq_layXNN 0xC x nn), _, rfl, rfl, by simp [onlyChanges_iff], hdest, ?_, rfl,
    fun r hr => s.reg_setReg_ne _ hr⟩
  rw [hdest, BitVec.and_assoc, BitVec.and_not_self]
  exact BitVec.and_zero

/-- Settles O29: NN is loaded by O21 and then added to itself by O22. -/
theorem loadThenAddImmediateDoubles : Obligations.LoadThenAddImmediateDoubles := by
  intro x nn s
  obtain ⟨-, t, ht, -, -, hload, -⟩ := loadImmediateWritesItsRegister x nn s
  obtain ⟨-, u, hu, -, -, hadd, -⟩ := addImmediateWrapsWithoutFlag x nn t
  exact ⟨t, u, ht, hu, by rw [hadd, hload, two_mul]⟩

end Sys2Proof.Machine

/-! PROOFS. Index register and memory (spec/43_index_memory.md): the three that set I, and the blocks of bytes from I
upward that store-BCD, reg-dump and reg-load move. -/

namespace Sys2Proof.Machine

open Statements

variable {s : State} {base n : Nat} {bs : List Byte}

/-- U1: a word written as its class and low byte with X is format XNN of R77. -/
theorem wordX_eq_layXNN (op : BitVec 4) (x : Reg) (nn : Byte) :
    wordX (op ++ 0#12 ||| nn.setWidth 16) x = layXNN op x nn := by
  rw [← wordXNN_eq_layXNN, wordX, wordXNN]
  ac_rfl

/-! ## The index register -/

/-- R104: an instruction that sets I and advances. -/
theorem completes_setI {v : Word} {result : Nat} (hv : v.toNat = result) :
    Completes (.next (s.setI v).advance) s [.I] fun t => t.I.toNat = result :=
  ⟨(s.setI v).advance, rfl, rfl, by simp [onlyChanges_iff], hv⟩

/-- Settles O41: the words are formats NNN and XNN of R77, and each instruction sets I to a value of known number. -/
theorem indexInstructionsWriteTheIndexRegister : Obligations.IndexInstructionsWriteTheIndexRegister :=
  ⟨fun nnn _ => ⟨decode_of_eq_encode (wordNNN_eq_layNNN 0xA nnn), completes_setI (zext16_toNat nnn)⟩,
    fun x s =>
      ⟨⟨decode_of_eq_encode (wordX_eq_layXNN 0xF x 0x1E), completes_setI (addIndex_toNat s.I (s.reg x))⟩,
        ⟨decode_of_eq_encode (wordX_eq_layXNN 0xF x 0x29), completes_setI (glyphAddress_toNat s.config (s.reg x))⟩⟩⟩

/-! ## Blocks from I upward -/

/-- R65: a block that is not empty fits when its last address is at most 4095. -/
theorem blockFits_succ : blockFits base (n + 1) = true ↔ base + n ≤ 4095 := by
  simp [blockFits_iff]

theorem blockFits_succ_eq_false : blockFits base (n + 1) = false ↔ 4095 < base + n := by
  rw [Bool.eq_false_iff, Ne, blockFits_succ, Nat.not_le]

/-- R53, R104: an instruction that stores a block that fits, and advances. -/
theorem completes_writeBlock (s : State) (h : blockFits base bs.length = true) :
    Completes (settle s ((s.writeBlock base bs).map (·.advance))) s [.mem] fun t =>
      (∀ k (hk : k < bs.length), t.byteAt (base + k) = bs[k]) ∧
      ∀ a, ¬(base ≤ a ∧ a < base + bs.length) → t.byteAt a = s.byteAt a := by
  rw [State.writeBlock_of_fits h]
  refine ⟨_, rfl, rfl, by simp [onlyChanges_iff], fun k hk => ?_, fun a ha => ?_⟩
  · rw [State.advance_byteAt, State.byteAt_setMem_writeAll, dif_pos ⟨by omega, by omega⟩]
    simp
  · rw [State.advance_byteAt, State.byteAt_setMem_writeAll, dif_neg ha]

/-- R164: each digit fits in its byte. -/
theorem bcdDigits_toNat (v : Byte) : (bcdDigits v)[0].toNat = v.toNat / 100 ∧
    (bcdDigits v)[1].toNat = v.toNat / 10 % 10 ∧ (bcdDigits v)[2].toNat = v.toNat % 10 := by
  simp only [bcdDigits, List.getElem_cons_zero, List.getElem_cons_succ, BitVec.toNat_ofNat]
  omega

/-- Settles O42: the block of the three digits fits when I + 2 is at most 4095. -/
theorem storeBcdWritesThreeDigits : Obligations.StoreBcdWritesThreeDigits := by
  intro x s
  refine ⟨decode_of_eq_encode (wordX_eq_layXNN 0xF x 0x33), fun h => ?_,
    fun h => exec_of_not_ready (i := .storeBCD x) (blockFits_succ_eq_false.mpr h)⟩
  obtain ⟨hhundreds, htens, hones⟩ := bcdDigits_toNat (s.reg x)
  obtain ⟨t, ht, hpc, hframe, hbytes, hothers⟩ :=
    completes_writeBlock (bs := bcdDigits (s.reg x)) s (blockFits_succ.mpr h)
  exact ⟨t, ht, hpc, hframe, hhundreds ▸ congrArg BitVec.toNat (hbytes 0 (by simp)),
    htens ▸ congrArg BitVec.toNat (hbytes 1 (by simp)), hones ▸ congrArg BitVec.toNat (hbytes 2 (by simp)), hothers⟩

/-- Settles O43: the block of V0 to V[X] has X + 1 bytes, of which byte `r` is V[r]. -/
theorem regDumpStoresTheRegisterRange : Obligations.RegDumpStoresTheRegisterRange := by
  intro x s
  refine ⟨decode_of_eq_encode (wordX_eq_layXNN 0xF x 0x55), fun h => ?_,
    fun h => exec_of_not_ready (i := .regDump x) (blockFits_succ_eq_false.mpr h)⟩
  have hlength := s.length_regsUpTo x
  obtain ⟨t, ht, hpc, hframe, hbytes, hothers⟩ :=
    completes_writeBlock (bs := s.regsUpTo x) s (hlength ▸ blockFits_succ.mpr h)
  refine ⟨t, ht, hpc, hframe, fun r hr => ?_, hlength ▸ hothers⟩
  have hr' : r.val < (s.regsUpTo x).length := hlength ▸ Nat.lt_succ_of_le hr
  exact (hbytes r.val hr').trans (s.getElem_regsUpTo x r.val hr')

/-- R166: the registers after a load of the bytes from `base` upward. -/
theorem reg_setV_fillRegs_readAll (s : State) (base n : Nat) (r : Reg) :
    (s.setV (fillRegs s.V 0 (s.mem.readAll s.config base n))).reg r =
      if r.val < n then s.byteAt (base + r.val) else s.reg r := by
  have hfill := getElem_fillRegs (s.mem.readAll s.config base n) s.V 0 r.val r.isLt
  simpa [State.reg, State.byteAt] using hfill

/-- Settles O44: of the registers filled with the X + 1 bytes read, those up to X. -/
theorem regLoadReadsTheRegisterRange : Obligations.RegLoadReadsTheRegisterRange := by
  intro x s
  refine ⟨decode_of_eq_encode (wordX_eq_layXNN 0xF x 0x65), fun h => ?_,
    fun h => exec_of_not_ready (i := .regLoad x) (blockFits_succ_eq_false.mpr h)⟩
  obtain ⟨t, ht, rfl⟩ := exec_of_ready (i := .regLoad x) (blockFits_succ.mpr h)
  refine ⟨_, ht, rfl, by simp [onlyChanges_iff], fun r hr => ?_, fun r hr => ?_⟩
  · exact (reg_setV_fillRegs_readAll s _ _ r).trans (if_pos (Nat.lt_succ_of_le hr))
  · exact (reg_setV_fillRegs_readAll s _ _ r).trans (if_neg (Nat.not_lt_of_le hr))

/-- Settles O45: the load reads by O44 the bytes that the dump stored by O43, since the dump keeps I and the change of
the registers keeps I and memory. -/
theorem regLoadRestoresWhatRegDumpSaved : Obligations.RegLoadRestoresWhatRegDumpSaved := by
  intro x s t V h ht
  obtain ⟨-, dump, -⟩ := regDumpStoresTheRegisterRange x s
  obtain ⟨t', ht', -, hframe, hbytes, -⟩ := dump h
  obtain rfl : t = t' := Host.Outcome.next.inj (ht.symm.trans ht')
  have hI : t.I = s.I := hframe .I (by simp)
  obtain ⟨-, load, -⟩ := regLoadReadsTheRegisterRange x (t.setV V)
  rw [State.setV_I, hI] at load
  obtain ⟨u, hu, -, -, hloaded, -⟩ := load h
  exact ⟨u, hu, fun r hr => (hloaded r hr).trans (hbytes r hr)⟩

end Sys2Proof.Machine

/-! PROOFS. Display (spec/44_display.md): who writes the framebuffer, clear-screen, and draw as an XOR of the pixels
that the sprite covers, from which a second draw is its own undoing. -/

namespace Sys2Proof.Machine

open Statements

variable {s t : State} {i : Instr}

/-! ## Who writes the framebuffer -/

theorem fb_mem_writes (h : .fb ∈ .fault :: i.writes) : i = .clearScreen ∨ ∃ x y n, i = .draw x y n := by
  cases i <;> simp_all [Instr.writes]

/-- R64: a Load writes memory or raises its fault. -/
theorem load_fb {image : List Byte} (h : load image s = .next t) : t.fb = s.fb := by
  obtain ⟨-, hl⟩ | ⟨-, -, hl⟩ | ⟨-, -, hl⟩ := load_cases image s <;> rw [hl] at h <;> cases h <;> rfl

/-- Settles O19: the tables of written elements name the framebuffer for the two instructions only, and the
invocations other than Step and Reset leave it. -/
theorem onlyDisplayInstructionsAndResetWriteTheScreen : Obligations.OnlyDisplayInstructionsAndResetWriteTheScreen := by
  refine ⟨fun i s t h hfb => fb_mem_writes (mem_writes_of_not_same h hfb), fun m s t h hfb => ?_⟩
  cases m with
  | step => exact .inl rfl
  | reset => exact .inr rfl
  | load image => exact absurd (load_fb h) hfb
  | tick | setKeys =>
    obtain rfl := Host.Outcome.next.inj h
    exact absurd rfl hfb

/-- Settles O48: the word is the opcode of clear-screen, and each pixel of the blank screen is off. -/
theorem clearScreenTurnsOffEveryPixel : Obligations.ClearScreenTurnsOffEveryPixel := fun s =>
  ⟨decode_encode .clearScreen, (s.setFb blankScreen).advance, rfl, rfl, by simp [onlyChanges_iff], pixel_blankScreen⟩

/-! ## A framebuffer with a set of pixels inverted -/

/-- R182 (d): from `f` to `g` the covered pixels are inverted and the others unchanged. -/
def XorsPixels (covered : Fin 64 → Fin 32 → Prop) (f g : Framebuffer) : Prop :=
  ∀ px py, (covered px py → pixel g px py = !pixel f px py) ∧ (¬covered px py → pixel g px py = pixel f px py)

theorem framebuffer_ext {f g : Framebuffer} (h : ∀ px py, pixel f px py = pixel g px py) : f = g :=
  Vector.ext fun y hy => Vector.ext fun x hx => h ⟨x, hx⟩ ⟨y, hy⟩

/-- R182 (b): the same pixels inverted twice are as before. -/
theorem XorsPixels.eq_of_twice {covered : Fin 64 → Fin 32 → Prop} {f g k : Framebuffer}
    (hfg : XorsPixels covered f g) (hgk : XorsPixels covered g k) : k = f := by
  refine framebuffer_ext fun px py => ?_
  obtain ⟨flip, keep⟩ := hfg px py
  obtain ⟨flip', keep'⟩ := hgk px py
  by_cases hc : covered px py
  · rw [flip' hc, flip hc, Bool.not_not]
  · rw [keep' hc, keep hc]

/-- R183: the pixels that are turned off are the covered ones that were on. -/
theorem XorsPixels.turnsOffAPixel_iff {covered : Fin 64 → Fin 32 → Prop} (h : XorsPixels covered s.fb t.fb) :
    TurnsOffAPixel s t ↔ ∃ px py, covered px py ∧ pixel s.fb px py = true := by
  refine exists_congr fun px => exists_congr fun py => ?_
  obtain ⟨flip, keep⟩ := h px py
  by_cases hc : covered px py
  · simp [flip hc, hc]
  · simp [keep hc, hc]

/-! ## The sprite -/

/-- R181: the sprite bits of the statements are those that the render engine takes from the rows it reads. -/
theorem spriteCovers_iff (s : State) (ox oy : Byte) (n : Nat) (px : Fin 64) (py : Fin 32) :
    SpriteCovers s ox.toNat oy.toNat n px py ↔
      ∃ r c, ∃ h : r < (s.mem.readAll s.config s.I.toNat n).length, line oy (0 + r) = py ∧ c < 8 ∧
        spriteBit (s.mem.readAll s.config s.I.toNat n)[r] c = true ∧ column ox c = px := by
  simp only [SpriteCovers, spriteBit, State.byteAt, line, column, Fin.ext_iff, Memory.length_readAll,
    Memory.getElem_readAll, Nat.zero_add]
  constructor
  · rintro ⟨r, c, hr, hc, hbit, hx, hy⟩
    exact ⟨r, c, hr, hy.symm, hc, hbit, hx.symm⟩
  · rintro ⟨r, c, hr, hy, hc, hbit, hx⟩
    exact ⟨r, c, hr, hc, hbit, hx.symm, hy.symm⟩

/-- Which pixels a sprite covers is told by I and memory. -/
theorem spriteCovers_congr (hI : t.I = s.I) (hmem : ∀ a, t.byteAt a = s.byteAt a) (ox oy n : Nat) :
    SpriteCovers t ox oy n = SpriteCovers s ox oy n := by
  unfold SpriteCovers
  simp only [hI, hmem]

open scoped Classical in
/-- R181, R182 (d): a drawn sprite of at most 32 rows inverts the pixels it covers. -/
theorem xorsPixels_drawSprite (s : State) (ox oy : Byte) {n : Nat} (hn : n ≤ 32) :
    XorsPixels (SpriteCovers s ox.toNat oy.toNat n) s.fb
      (s.drawSprite ox oy (s.mem.readAll s.config s.I.toNat n)).fb := by
  intro px py
  have hcovers := spriteCovers_iff s ox oy n px py
  have hpixel := Canvas.pixel_plotRows ox oy (s.mem.readAll s.config s.I.toNat n) 0
    (by rwa [Memory.length_readAll, Nat.zero_add]) ⟨s.fb, false⟩ px py
  refine ⟨fun hc => hpixel.trans ?_, fun hc => hpixel.trans ?_⟩
  · rw [decide_eq_true (hcovers.mp hc), Bool.xor_true]
  · rw [decide_eq_false (mt hcovers.mpr hc), Bool.xor_false]

/-! ## The instruction draw -/

/-- R65, R181 (D17): the check of draw as the statements write it. -/
theorem ready_draw_iff (x y : Reg) (n : BitVec 4) (s : State) :
    (Instr.draw x y n).ready s = true ↔ n = 0 ∨ s.I.toNat + n.toNat - 1 ≤ 4095 := by
  have hn : n = 0 ↔ n.toNat = 0 := BitVec.toNat_eq
  rw [Instr.ready, blockFits_iff, hn]
  omega

/-- Settles O49: the word is format XYN of R77, the pixels are those of `xorsPixels_drawSprite`, and VF tells by
`reg_vf_drawSprite` whether a pixel was turned off, which is one that was covered and on. -/
theorem drawXorsTheSpriteIntoTheScreen : Obligations.DrawXorsTheSpriteIntoTheScreen := by
  intro x y n s
  refine ⟨decode_of_eq_encode (wordXYN_eq_layXYN 0xD x y n), fun h => ?_, fun ⟨hn, hI⟩ => ?_⟩
  · obtain ⟨t, ht, rfl⟩ := exec_of_ready ((ready_draw_iff x y n s).mpr h)
    have hn : n.toNat ≤ 32 := by omega
    have hxor := xorsPixels_drawSprite s (s.reg x) (s.reg y) hn
    obtain ⟨hcollision, hnone⟩ := s.reg_vf_drawSprite (s.reg x) (s.reg y)
      (rows := s.mem.readAll s.config s.I.toNat n.toNat) (by rwa [Memory.length_readAll])
    rw [hxor.turnsOffAPixel_iff] at hcollision hnone
    refine ⟨_, ht, rfl, by simp [onlyChanges_iff, State.drawSprite], hxor, hcollision, fun hoff => hnone ?_,
      fun r hr => State.reg_setReg_ne _ _ hr⟩
    rintro ⟨px, py, hc, hon⟩
    exact Bool.false_ne_true ((hoff px py hc).symm.trans hon)
  · refine exec_of_not_ready (i := .draw x y n) (Bool.eq_false_iff.mpr fun h => ?_)
    rcases (ready_draw_iff x y n s).mp h with h0 | hle
    · exact hn h0
    · exact Nat.not_le.mpr hI hle

/-- Settles O50: by O49 both draws invert the same pixels, since the first keeps I, memory and by hypothesis the
coordinates; a covered pixel that was off before the first draw is on before the second. -/
theorem drawingTwiceRestoresTheScreen : Obligations.DrawingTwiceRestoresTheScreen := by
  intro x y n s t h ht hx hy
  obtain ⟨-, first, -⟩ := drawXorsTheSpriteIntoTheScreen x y n s
  obtain ⟨t', ht', -, hframe, hxor, hcollision, -⟩ := first h
  obtain rfl : t = t' := Host.Outcome.next.inj (ht.symm.trans ht')
  have hI : t.I = s.I := hframe .I (by simp)
  have hcovers := spriteCovers_congr hI (hframe .mem (by simp))
  obtain ⟨-, second, -⟩ := drawXorsTheSpriteIntoTheScreen x y n t
  rw [hI, hx, hy, hcovers] at second
  obtain ⟨u, hu, -, -, hxor', hcollision', hnone', -⟩ := second h
  have hoff := XorsPixels.turnsOffAPixel_iff hxor'
  refine ⟨u, hu, XorsPixels.eq_of_twice hxor hxor', ⟨fun hvf => ?_, fun hturned => hcollision' (hoff.mp hturned)⟩,
    fun hvf ⟨px, py, hc⟩ => hcollision' ⟨px, py, hc, ?_⟩⟩
  · by_contra hnot
    have hvf' : u.reg 15 = 0 := hnone' fun px py hc =>
      Bool.eq_false_iff.mpr fun hon => hnot (hoff.mpr ⟨px, py, hc, hon⟩)
    cases hvf.symm.trans hvf'
  · have hdark : pixel s.fb px py = false := Bool.eq_false_iff.mpr fun hon => by
      cases hvf.symm.trans (hcollision ⟨px, py, hc, hon⟩)
    rw [(hxor px py).1 hc, hdark, Bool.not_false]

end Sys2Proof.Machine

/-! PROOFS. Keypad and timers (spec/45_timer_input.md): the skips on the level of one key, the wait for a newly pressed
key, the three instructions that move a timer, and Tick. -/

namespace Sys2Proof.Machine

open Statements

variable {s : State} {k : Nat}

/-! ## The keypad -/

/-- R191, R197: the skip on a pressed key. -/
theorem setsPc_skipIf_keyPressed (s : State) (a : Byte) :
    SetsPc (.next (s.skipIf (keyPressed s.keys a))) s
      (if s.keys.getLsbD (a.toNat % 16) then s.pc + 4 else s.pc + 2) :=
  setsPc_setPc (by rw [keyPressed_eq])

/-- R192, R197: the skip on a key that is not pressed. -/
theorem setsPc_skipIf_not_keyPressed (s : State) (a : Byte) :
    SetsPc (.next (s.skipIf (!keyPressed s.keys a))) s
      (if s.keys.getLsbD (a.toNat % 16) then s.pc + 2 else s.pc + 4) :=
  setsPc_setPc (by rw [keyPressed_eq]; cases s.keys.getLsbD (a.toNat % 16) <;> rfl)

/-- Settles O36: both words are format XNN of R77, and both instructions are a skip on the level of one key. -/
theorem keySkipsTestTheLevelOfOneKey : Obligations.KeySkipsTestTheLevelOfOneKey := fun x s =>
  ⟨⟨decode_of_eq_encode (wordX_eq_layXNN 0xE x 0x9E), setsPc_skipIf_keyPressed s (s.reg x)⟩,
    ⟨decode_of_eq_encode (wordX_eq_layXNN 0xE x 0xA1), setsPc_skipIf_not_keyPressed s (s.reg x)⟩⟩

/-- R194: the model finds no key when none is newly pressed. -/
theorem leastKey_newKeys_eq_none (h : ∀ k, k < 16 → ¬newlyPressed s k) :
    leastKey (newKeys s.keys s.keyPrev) = none :=
  (leastKey_none_iff _).mpr fun k hk => Bool.eq_false_iff.mpr (mt (getLsbD_newKeys hk).mp (h k hk))

/-- R194: the model finds the least of the newly pressed keys. -/
theorem leastKey_newKeys_eq_some (hk : k < 16) (hnew : newlyPressed s k) (hleast : ∀ j, j < k → ¬newlyPressed s j) :
    leastKey (newKeys s.keys s.keyPrev) = some k :=
  (leastKey_some_iff _ k).mpr ⟨hk, (getLsbD_newKeys hk).mpr hnew, fun j hj =>
    Bool.eq_false_iff.mpr (mt (getLsbD_newKeys (hj.trans hk)).mp (hleast j hj))⟩

/-- R194: with no key found, wait-key sets PC to what it was. -/
theorem exec_waitKey_of_none (x : Reg) (h : leastKey (newKeys s.keys s.keyPrev) = none) :
    exec (.waitKey x) s = .next s := by
  rw [exec, execWaitKey, h]
  rfl

/-- R194: with a key found, wait-key writes its number and goes on. -/
theorem exec_waitKey_of_some (x : Reg) (h : leastKey (newKeys s.keys s.keyPrev) = some k) :
    exec (.waitKey x) s = .next (s.setReg x (BitVec.ofNat 8 k)).advance := by
  rw [exec, execWaitKey, h]

/-- Settles O37: the key that the model finds is the one of the statement, and its number fits in a byte. -/
theorem waitKeyTakesTheLeastNewlyPressedKey : Obligations.WaitKeyTakesTheLeastNewlyPressedKey := by
  intro x s
  refine ⟨decode_of_eq_encode (wordX_eq_layXNN 0xF x 0x0A),
    fun hnone => exec_waitKey_of_none x (leastKey_newKeys_eq_none hnone), fun k hk hnew hleast => ?_⟩
  rw [exec_waitKey_of_some x (leastKey_newKeys_eq_some hk hnew hleast)]
  exact setsRegister_setReg ((BitVec.toNat_ofNat k 8).trans (Nat.mod_eq_of_lt (by omega)))

/-! ## The timers -/

/-- R104, R195: an instruction that sets DT and advances. -/
theorem completes_setDt (s : State) (v : Byte) :
    Completes (.next (s.setDt v).advance) s [.dt] fun t => t.dt = v :=
  ⟨(s.setDt v).advance, rfl, rfl, by simp [onlyChanges_iff], rfl⟩

/-- R28, R104, R196: an instruction that sets ST, which the tone output shows, and advances. -/
theorem completes_setSt (s : State) (v : Byte) :
    Completes (.next (s.setSt v).advance) s [.st] fun t => t.st = v ∧ t.sound = v :=
  ⟨(s.setSt v).advance, rfl, rfl, by simp [onlyChanges_iff], rfl, rfl⟩

/-- Settles O38: the words are format XNN of R77, and each instruction writes one register or one timer. -/
theorem timerInstructionsMoveOneTimer : Obligations.TimerInstructionsMoveOneTimer := fun x s =>
  ⟨⟨decode_of_eq_encode (wordX_eq_layXNN 0xF x 0x07), setsRegister_setReg rfl⟩,
    ⟨decode_of_eq_encode (wordX_eq_layXNN 0xF x 0x15), completes_setDt s (s.reg x)⟩,
    ⟨decode_of_eq_encode (wordX_eq_layXNN 0xF x 0x18), completes_setSt s (s.reg x)⟩⟩

/-- Settles O39: the listed Tick is the next invocation, whatever the fault register holds, and each timer loses one
and stops at 0. -/
theorem tickDecrementsBothTimers : Obligations.TickDecrementsBothTimers := fun s rest hd =>
  ⟨(s.setDriver rest).tick, step_of_driver_cons hd, rfl, ticked_toNat s.dt, ticked_toNat s.st,
    by simp [onlyChanges_iff]⟩

end Sys2Proof.Machine

/-! PROOFS. Exceptions (spec/60_exceptions.md): the one fault of an instruction, the precision of every fault that a
Step raises, and the invocations of a HALTED core, of which Reset alone leads back to RUNNING. -/

namespace Sys2Proof.Machine

variable {s t : State} {i : Instr}

/-! ## Precise faults -/

/-- R216, R217: after an instruction the fault register is as before, or holds the instruction's one fault with nothing
else changed. -/
theorem exec_keeps_fault_or_raises (h : exec i s = .next t) :
    t.fault = s.fault ∨ ∃ f, i.executeFault = some f ∧ t = s.setFault (some f) := by
  rcases exec_cases h with ⟨hr, rfl⟩ | ⟨-, hc⟩
  · obtain ⟨f, hf⟩ := Option.ne_none_iff_exists'.mp (executeFault_ne_none hr)
    exact .inr ⟨f, hf, by rw [hf]⟩
  · exact .inl (fault_of_completesTo hc)

/-- Settles O13: an instruction answers a next state by `exec_total`, and its fault is that of
`exec_keeps_fault_or_raises`. -/
theorem instructionsRaiseOnlyTheirOwnFault : Obligations.InstructionsRaiseOnlyTheirOwnFault := by
  intro i s
  obtain ⟨t, ht⟩ := exec_total i s
  exact ⟨t, ht, exec_keeps_fault_or_raises ht⟩

/-- R106: COMMIT does nothing where the fault register is set, and never writes it. -/
theorem State.commit_of_fault (h : s.commit.fault ≠ none) : s.commit = s := by
  rcases s.commit_cases with ⟨hf, hc⟩ | ⟨-, hc⟩
  · rw [hc] at h
    exact absurd hf h
  · exact hc

/-- R217: each fault that a Step of a RUNNING core raises, in fetch, decode or EXECUTE, changes the fault register
only. -/
theorem coreStep_eq_setFault_of_fault (hs : s.fault = none) (h : coreStep s = .next t) (hf : t.fault ≠ none) :
    t = s.setFault t.fault := by
  obtain ⟨-, hc⟩ | ⟨-, w, -, -, ⟨r, -, hc⟩ | ⟨i, -, hc⟩⟩ := coreStep_running hs <;> rw [hc] at h
  · obtain rfl := Host.Outcome.next.inj h
    rfl
  · obtain rfl := Host.Outcome.next.inj h
    rfl
  · obtain ⟨u, hu, rfl⟩ := commitOutcome_next h
    have hcommit : u.commit = u := State.commit_of_fault hf
    rw [hcommit] at hf ⊢
    obtain hkept | ⟨f, -, rfl⟩ := exec_keeps_fault_or_raises hu
    · exact absurd (hkept.trans hs) hf
    · rfl

/-- Settles O11: with nothing listed the step is a Step, from the state with the model's bit `stepped` set. -/
theorem faultingStepIsPrecise : Obligations.FaultingStepIsPrecise := by
  intro s t hd hs h hf
  rw [step_of_driver_nil hd] at h
  exact coreStep_eq_setFault_of_fault (s := s.markStepped) hs h hf

/-! ## Leaving HALTED -/

/-- R64, R215: a Load never clears the fault register. -/
theorem load_keeps_halted {image : List Byte} (hf : s.fault ≠ none) (h : load image s = .next t) :
    t.fault ≠ none := by
  obtain ⟨-, hl⟩ | ⟨-, -, hl⟩ | ⟨-, -, hl⟩ := load_cases image s <;> rw [hl] at h <;> cases h
  · exact Option.some_ne_none _
  · exact hf

/-- R218, R219: an invocation other than Reset leaves a HALTED core HALTED. -/
theorem invoke_keeps_halted {m : Invocation} (hf : s.fault ≠ none) (hreset : m ≠ .reset)
    (h : invoke m s = .next t) : t.fault ≠ none := by
  by_cases hload : ∃ image, m = .load image
  · obtain ⟨image, rfl⟩ := hload
    exact load_keeps_halted hf h
  · have hfault : t.fault = s.fault :=
      invoke_onlyChanges_of_halted hf hreset (not_exists.mp hload) h .fault (by simp)
    exact hfault ▸ hf

/-- R39, R240: Reset erases memory, which then lists nothing and reads as the background. -/
theorem State.resetCore_byteAt (s : State) (a : Nat) : s.resetCore.byteAt a = Memory.background s.config a := rfl

/-- Settles O16: with nothing listed the next invocation is a Step, otherwise it is the first of the list; by
`invoke_keeps_halted` only a Reset leaves HALTED. -/
theorem onlyResetLeavesTheHaltedState : Obligations.OnlyResetLeavesTheHaltedState := by
  intro s t hf h
  cases hd : s.driver with
  | nil =>
    rw [step_of_driver_nil hd] at h
    exact ⟨fun _ => invoke_keeps_halted (m := .step) hf (by simp) h, by simp⟩
  | cons m rest =>
    rw [step_of_driver_cons hd] at h
    refine ⟨fun hne => invoke_keeps_halted (s := s.setDriver rest) hf (by simpa using hne) h, fun heq => ?_⟩
    obtain rfl : m = .reset := Option.some.inj heq
    obtain rfl := Host.Outcome.next.inj h
    exact ⟨rfl, State.resetCore_byteAt (s.setDriver rest)⟩

end Sys2Proof.Machine

/-! PROOFS. Reset (spec/70_reset_and_hazards.md): the invocation puts every element of the core at its reset value. -/

namespace Sys2Proof.Machine

/-- Settles O52: the listed Reset is the next invocation, whatever the fault register holds, and the state it answers
takes from the state before it only the parameters, the keypad flags, the count of draws and the rest of the list. -/
theorem resetInvocationRestoresTheResetState : Obligations.ResetInvocationRestoresTheResetState := fun s rest hd =>
  calc step s
    _ = .next (s.setDriver rest).resetCore := step_of_driver_cons hd
    _ = .next { State.resetWith s.config with keys := s.keys, draws := s.draws, driver := rest } := rfl

end Sys2Proof.Machine
